-- ==== Sys2Proof/Word.lean ====
section
/-! DEFINITION. The byte, the unit of every frame on the lines and the trunk (chapter 12). Counts, numbers of
table entries and times are natural numbers with the bounds and wraps their rules give. -/

namespace Sys2Proof

/-- One byte of a frame. -/
abbrev Byte := BitVec 8

/-- A field of two bytes, high byte first (chapter 12). -/
abbrev Word := BitVec 16

end Sys2Proof
end

