-- ==== Sys2Proof/Syntax.lean ====
section
/-! DEFINITION. The commands the block takes: one constructor per row of spec/opcode_table.json. Operands are what
the command brings from outside: the address byte and payload of a frame, the number of a line or a beacon. Payload
bytes stay bytes, so that a short payload, surplus bytes and every field value reach the rules that judge them. -/

namespace Sys2Proof

/-- The payload of a directive whose row is fixed by its kind alone (R196). -/
inductive Request where
  /-- The payload has no byte, not even a tag. -/
  | empty
  /-- The tag, and the bytes after it. -/
  | tagged (tag : Byte) (fields : List Byte)
  deriving DecidableEq, Repr

/-- The payload of a directive whose row is fixed by a code after the tag: the table id of LOAD, ERASE and READ, the
selector of FAULT, the code of MODE, the kind of RESTART (R186, R121, R174, R178, R196). A payload whose code is
missing or names nothing belongs to every row of its directive alike. -/
inductive CodedRequest where
  /-- The payload has no byte, not even a tag. -/
  | empty
  /-- The payload ends with the tag. -/
  | codeMissing (tag : Byte)
  /-- The code names no listed value. -/
  | codeUnknown (tag : Byte)
  /-- The code is the row's own; the bytes after the code. -/
  | coded (tag : Byte) (fields : List Byte)
  deriving DecidableEq, Repr

/-- The payload of a STATUS, whose clear option names a row whatever its value (R193, R196). -/
inductive StatusRequest where
  /-- The payload has no byte, not even a tag. -/
  | empty
  /-- The payload ends with the tag. -/
  | optionMissing (tag : Byte)
  /-- The clear option is the row's own: 0 for STATUS, any other value for STATUS_CLEAR. -/
  | given (tag : Byte)
  deriving DecidableEq, Repr

/-- Why the trunk receiver discards a frame (R181). -/
inductive TrunkDiscard where
  | lengthAbove250
  | checkMismatch
  deriving DecidableEq, Repr

/-- The commands. `addr` is the address byte of a trunk frame (R182) or of a field frame (R195), `line` a line unit
LU1 to LU4 as 0 to 3, `beacon` a beacon 1 to 4 as 0 to 3. -/
inductive Instr where
  | partLoad (addr : Byte) (req : CodedRequest)
  | lineLoad (addr : Byte) (req : CodedRequest)
  | outstationLoad (addr : Byte) (req : CodedRequest)
  | assetLoad (addr : Byte) (req : CodedRequest)
  | pointLoad (addr : Byte) (req : CodedRequest)
  | faultProfileLoad (addr : Byte) (req : CodedRequest)
  | loopProfileLoad (addr : Byte) (req : CodedRequest)
  | stormLoad (addr : Byte) (req : CodedRequest)
  | beaconLoad (addr : Byte) (req : CodedRequest)
  | partErase (addr : Byte) (req : CodedRequest)
  | lineErase (addr : Byte) (req : CodedRequest)
  | outstationErase (addr : Byte) (req : CodedRequest)
  | assetErase (addr : Byte) (req : CodedRequest)
  | pointErase (addr : Byte) (req : CodedRequest)
  | faultProfileErase (addr : Byte) (req : CodedRequest)
  | loopProfileErase (addr : Byte) (req : CodedRequest)
  | stormErase (addr : Byte) (req : CodedRequest)
  | beaconErase (addr : Byte) (req : CodedRequest)
  | partRead (addr : Byte) (req : CodedRequest)
  | lineRead (addr : Byte) (req : CodedRequest)
  | outstationRead (addr : Byte) (req : CodedRequest)
  | assetRead (addr : Byte) (req : CodedRequest)
  | pointRead (addr : Byte) (req : CodedRequest)
  | faultProfileRead (addr : Byte) (req : CodedRequest)
  | loopProfileRead (addr : Byte) (req : CodedRequest)
  | stormRead (addr : Byte) (req : CodedRequest)
  | beaconRead (addr : Byte) (req : CodedRequest)
  | list (addr : Byte) (req : Request)
  | faultById (addr : Byte) (req : CodedRequest)
  | faultByAsset (addr : Byte) (req : CodedRequest)
  | ack (addr : Byte) (req : Request)
  | close (addr : Byte) (req : Request)
  | time (addr : Byte) (req : Request)
  | modeRun (addr : Byte) (req : CodedRequest)
  | modeMaintain (addr : Byte) (req : CodedRequest)
  | restartRuntime (addr : Byte) (req : CodedRequest)
  | restartFull (addr : Byte) (req : CodedRequest)
  | downlink (addr : Byte) (req : Request)
  | resync (addr : Byte) (req : Request)
  | beaconReset (addr : Byte) (req : Request)
  | status (addr : Byte) (req : StatusRequest)
  | statusClear (addr : Byte) (req : StatusRequest)
  | unknownKind (addr : Byte) (kind : Byte) (req : Request)
  | trunkCheckFail (cause : TrunkDiscard)
  | trunkFrameIgnored (addr : Byte) (kind : Byte)
  | powerOn
  | transmitBegin
  | transmitComplete
  | tally (line : Fin 4) (addr : Byte) (payload : List Byte)
  | quiet (line : Fin 4) (addr : Byte) (payload : List Byte)
  | fieldFrameDiscard (line : Fin 4) (bytes : List Byte)
  | stray (line : Fin 4) (addr : Byte) (kind : Byte) (payload : List Byte)
  | pollChoose (line : Fin 4)
  | exceptionChoose (line : Fin 4)
  | sweepSent (line : Fin 4)
  | orderSent (line : Fin 4)
  | sweepTimeout (line : Fin 4)
  | orderTimeout (line : Fin 4)
  | secondTick
  | minuteTick
  | lineSecondWork (line : Fin 4)
  | beaconStretchTick (beacon : Fin 4)
  | rankerMinuteEvent
  | windowCloseEvent
  | stormMinuteEvent
  | walkBegin
  | absorbVisit
  | releaseVisit
  | rebuildVisit
  | resetInputActive
  deriving DecidableEq, Repr

end Sys2Proof
end

