-- ==== Sys2Proof/Decode.lean ====
section
/-! DEFINITION. The command a word of the opcode table spells. The table gives no row any bits (log 3), so no word
spells a command. -/

namespace Sys2Proof

/-- No row of spec/opcode_table.json has bits: no word spells a command (log 3). -/
def decodeTableWord (_nbits _w : Nat) : Option Instr := none

end Sys2Proof
end

