-- ==== Sys2Proof/Config.lean ====
section
/-! DEFINITION. What the part fixes (the capacities of 00_scope) and the free values: constants with no body, so
that nothing can be proved of the values the manual leaves open. -/

namespace Sys2Proof.Config

/-- Asset records, numbered from 0 (R1). -/
abbrev assetCapacity : Nat := 2048

/-- The greatest depth of an asset, the asset itself counted (R5). -/
abbrev maxDepth : Nat := 6

/-- Fault records (R98). -/
abbrev recordCapacity : Nat := 512

/-- Point map entries (R45). -/
abbrev pointCapacity : Nat := 4096

/-- Pending point map entries (R45). -/
abbrev pendingCapacity : Nat := 256

/-- Point records in one TALLY (R38). -/
abbrev tallyCapacity : Nat := 24

/-- Entries of a line's downlink queue (R35). -/
abbrev downlinkCapacity : Nat := 4

/-- Frames of the trunk transmit queue (R188). -/
abbrev transmitCapacity : Nat := 64

/-- Summaries in one LIST reply (R151). -/
abbrev listCapacity : Nat := 8

/-- The bound at which the 16-bit counters and counts saturate (R39, R52, R84, R143, R161, R181). -/
abbrev counterBound : Nat := 65535

/-- FREE VALUE (log 7). The order in which several blocks take the work of one tick within one event, which R172 leaves
open: for the given draw, the place of the next block among those that are placed already. -/
opaque freePlace : Nat → Nat → Nat

/-- FREE VALUE (log 8). The two bytes a READ of the given asset shows for an absent last-window count of a LOOP,
which R197 leaves open. -/
opaque absentLastWindow : Nat → Word

/-- FREE VALUE (log 8). The two bytes a READ of the given point key shows for its count when count-present is 0 and
the key has an entry, which R197 leaves open. -/
opaque absentPointCount : Nat → Word

end Sys2Proof.Config
end

