-- ==== Sys2Proof/Machine/State.lean ====
section
/-! DEFINITION. The state of the part as plain data, block by block, and its value after power-on. Values the manual
fixes from other fields at every moment (line state, link condition, children sets, occupancy counts, time-valid) are
computed from them (log 17). -/

namespace Sys2Proof.Machine

/-- A list of key and entry pairs; its canonical form has the keys strictly rising (Table.wf). -/
abbrev Table (α : Type) := List (Nat × α)

/-- The operating modes (R174). -/
inductive Mode where
  | maintain
  | entering
  | run
  deriving DecidableEq, Repr

/-- A report condition; the constructors stand in the rising order of 00_scope. -/
inductive Condition where
  | unknown
  | ok
  | degraded
  | fail
  deriving DecidableEq, Repr

/-- The severity of a FAULTY asset or of a fault record. -/
inductive Severity where
  | degraded
  | fail
  deriving DecidableEq, Repr

/-- The debounced condition with its severity, which is absent exactly while HEALTHY (R71, R72). -/
inductive Health where
  | healthy
  | faulty (severity : Severity)
  deriving DecidableEq, Repr

/-! ## Time base (R171) -/

/-- The day-minute is present exactly while time-valid is set. -/
structure TimeBase where
  second : Nat
  runMinute : Nat
  dayMinute : Option Nat
  deriving DecidableEq, Repr

/-- The work a tick hands to a block (R172): of a second tick that of each line unit and of each beacon output, of a minute
tick that of the ranker, of the loop supervisor and of the storm monitor. -/
inductive TickWork where
  | line (k : Fin 4)
  | beacon (b : Fin 4)
  | ranker
  | windows
  | storm
  deriving DecidableEq, Repr

/-! ## Assets (chapter 1) and loop windows (R82) -/

inductive Kind where
  | feeder
  | cabinet
  | junction
  | lamp
  | loop
  | sign
  deriving DecidableEq, Repr

/-- The window fields of a LOOP asset: c, gap flag, last-window count and loop-check result. -/
structure Window where
  count : Nat
  gap : Bool
  last : Option Nat
  result : Condition
  deriving DecidableEq, Repr

/-- The window fields as they come into being (R82) and as RESTART RUNTIME leaves them (R14). -/
def Window.fresh : Window := { count := 0, gap := true, last := none, result := .unknown }

/-- The configuration fields of an asset (R1, R3). -/
structure AssetConfig where
  kind : Kind
  parent : Option Nat
  weight : Nat
  faultProfile : Fin 16
  loopProfile : Option (Fin 8)
  deriving DecidableEq, Repr

/-- A present asset record: its configuration, and the runtime fields of section 1.1. `window` is present for a LOOP
alone. -/
structure Asset where
  config : AssetConfig
  integrator : Nat
  health : Health
  absorbedBy : Option Nat
  faultId : Option Nat
  waiting : Bool
  window : Option Window
  deriving DecidableEq, Repr

/-! ## Lines and outstations (chapter 2) -/

inductive Personality where
  | off
  | polled
  | exception
  deriving DecidableEq, Repr

/-- The settings of a line (R17). -/
structure LineSettings where
  personality : Personality
  t1 : Nat
  n2 : Nat
  rv : Nat
  g : Nat
  fmax : Nat
  deriving DecidableEq, Repr

/-- The power-on column of section 2.1. -/
def LineSettings.powerOn : LineSettings := { personality := .off, t1 := 50, n2 := 2, rv := 4, g := 300, fmax := 128 }

/-- The six counters of a line (R39). -/
structure LineCounters where
  good : Nat
  checkErrors : Nat
  overlong : Nat
  unknownStation : Nat
  strays : Nat
  timeouts : Nat
  deriving DecidableEq, Repr

def LineCounters.zero : LineCounters :=
  { good := 0, checkErrors := 0, overlong := 0, unknownStation := 0, strays := 0, timeouts := 0 }

/-- A downlink entry: target outstation, payload, and the tag and address of its deferred reply (section 2.7). -/
structure Downlink where
  outstation : Nat
  payload : List Byte
  tag : Byte
  addr : Byte
  deriving DecidableEq, Repr

/-- What a transaction sends: a SWEEP or a check SWEEP with its FULL flag (R29, R31, R33), or an ORDER (R36). -/
inductive TransactionKind where
  | sweep (full : Bool)
  | check (full : Bool)
  | order (entry : Downlink)
  deriving DecidableEq, Repr

/-- How far a transaction is: its frame is being sent, the outstation is awaited with the timer running, or a SWEEP
is being sent again while the outstation is still awaited (R29, R30, R41). -/
inductive Phase where
  | sending
  | awaiting
  | resending
  deriving DecidableEq, Repr

/-- The transaction a line has in hand. `timer` is the reply timer's load in 10 ms units while it runs (R17). -/
structure Transaction where
  kind : TransactionKind
  outstation : Nat
  phase : Phase
  timer : Option Nat
  deriving DecidableEq, Repr

/-- Whether the previous transaction of a line was a SWEEP or an ORDER (R27, R34). -/
inductive Previous where
  | sweep
  | order
  deriving DecidableEq, Repr

/-- A line unit. `pollPosition` is the index of the outstation most recently chosen, absent at the start of a cycle (R27).
`received` are the bytes of a frame still being received, from its start byte on (R37). -/
structure Line where
  settings : LineSettings
  transaction : Option Transaction
  pollPosition : Option Nat
  previous : Option Previous
  queue : List Downlink
  counters : LineCounters
  received : List Byte
  deriving DecidableEq, Repr

/-- A line unit after power-on (R42). -/
def Line.powerOn : Line :=
  { settings := .powerOn, transaction := none, pollPosition := none, previous := none, queue := [], counters := .zero,
    received := [] }

inductive RelayPolicy where
  | all
  | changes
  | none
  deriving DecidableEq, Repr

inductive Comms where
  | new
  | online
  | silent
  deriving DecidableEq, Repr

/-- The configuration fields of an outstation (R21). -/
structure OutstationConfig where
  address : Nat
  policy : RelayPolicy
  link : Option Nat
  deriving DecidableEq, Repr

/-- A present outstation record. The link condition follows from the comms state (R20). `integrityDue` is the outcome of
the integrity test kept at second ticks (R33; log 12). -/
structure Outstation where
  config : OutstationConfig
  comms : Comms
  retry : Nat
  lastHeard : Option Nat
  countdown : Nat
  fullDue : Bool
  integrityDue : Bool
  deriving DecidableEq, Repr

/-! ## Point map (chapter 3) -/

/-- An entry of the point map (section 3.1): RESOLVED in role STATUS or COUNT, or PENDING. -/
inductive Point where
  | status (asset : Nat) (condition : Condition)
  | count (asset : Nat) (baseline : Option Nat)
  | pending (held : Condition) (heldCount : Option Nat)
  deriving DecidableEq, Repr

/-- A point record of a TALLY as received: its 16-bit word, and the count value its marker announces (R195). -/
structure PointRecord where
  word : Word
  count : Option Word
  deriving DecidableEq, Repr

/-! ## Profiles (section 4.1 and section 5.1) -/

structure FaultProfile where
  up : Nat
  degrade : Nat
  down : Nat
  ceiling : Nat
  threshold : Nat
  baseFail : Nat
  baseDegraded : Nat
  perAbsorbed : Nat
  perStep : Nat
  interval : Nat
  deriving DecidableEq, Repr

/-- The power-on column of section 4.1 (R65). -/
def FaultProfile.powerOn : FaultProfile :=
  { up := 4, degrade := 1, down := 1, ceiling := 12, threshold := 8, baseFail := 1024, baseDegraded := 256,
    perAbsorbed := 16, perStep := 32, interval := 0 }

/-- One band of expected traffic. -/
structure Band where
  start : Nat
  min : Nat
  max : Nat
  deriving DecidableEq, Repr

structure LoopProfile where
  length : Nat
  limit : Nat
  band0 : Band
  band1 : Band
  band2 : Band
  band3 : Band
  deriving DecidableEq, Repr

/-- The power-on column of section 5.1 (R79). -/
def LoopProfile.powerOn : LoopProfile :=
  { length := 15, limit := 600, band0 := ⟨0, 0, 65535⟩, band1 := ⟨360, 0, 65535⟩, band2 := ⟨720, 0, 65535⟩,
    band3 := ⟨1080, 0, 65535⟩ }

/-! ## Fault table (chapter 6) -/

inductive RecordState where
  | opened
  | acked
  deriving DecidableEq, Repr

/-- A fault record (R99), found under its fault ID. `steps` is s, `minutes` m, `absorbed` n, `urgency` U. -/
structure FaultRecord where
  asset : Nat
  severity : Severity
  state : RecordState
  openedRun : Nat
  openedDay : Option Nat
  steps : Nat
  minutes : Nat
  absorbed : Nat
  urgency : Nat
  console : Option Nat
  changeDue : Bool
  deriving DecidableEq, Repr

/-! ## Correlation (chapter 7) -/

inductive WalkKind where
  | absorb
  | release
  deriving DecidableEq, Repr

/-- An entry of the walk list (R127). -/
structure WalkEntry where
  root : Nat
  kind : WalkKind
  deriving DecidableEq, Repr

/-- The walk in flight (R129). `recorded` is the fault ID an ABSORB walk noted when it began; `cursor` the chain from
the root's child down to the asset last visited. -/
structure Walk where
  root : Nat
  kind : WalkKind
  recorded : Option Nat
  cursor : List Nat
  deriving DecidableEq, Repr

/-- Where a reply goes: the address the directive arrived on, and its tag (R185). -/
structure ReplyTo where
  addr : Byte
  tag : Byte
  deriving DecidableEq, Repr

/-- The rebuild in flight: the asset it visited last (R128), and the deferred reply of its MODE RUN, none for a MODE
that arrived on the group address (R175). -/
structure Rebuild where
  last : Option Nat
  owed : Option ReplyTo
  deriving DecidableEq, Repr

/-! ## Storm monitor and beacons (chapter 9) -/

/-- Settings Se, Sx and Q, and the state of section 9.2. -/
structure Storm where
  entry : Nat
  exit : Nat
  calmPeriod : Nat
  on : Bool
  calm : Nat
  opens : Nat
  deriving DecidableEq, Repr

/-- The storm monitor after power-on (R160, R170). -/
def Storm.powerOn : Storm := { entry := 0, exit := 0, calmPeriod := 10, on := false, calm := 0, opens := 0 }

inductive BeaconSource where
  | off
  | on
  | headUrgency
  | anyOpen
  | storm
  | tableFull
  | lineSilent
  deriving DecidableEq, Repr

/-- NONE, a minimum on-time, or LATCHED (R166). -/
inductive Stretch where
  | unstretched
  | s1
  | s2
  | s5
  | s10
  | s30
  | s60
  | latched
  deriving DecidableEq, Repr

/-- A beacon record (section 9.4). -/
structure Beacon where
  source : BeaconSource
  argument : Nat
  stretch : Stretch
  value : Bool
  output : Bool
  count : Nat
  latch : Bool
  deriving DecidableEq, Repr

/-- A beacon after power-on (R170). -/
def Beacon.powerOn : Beacon :=
  { source := .off, argument := 0, stretch := .unstretched, value := false, output := false, count := 0,
    latch := false }

/-! ## Trunk unit (chapter 11) -/

/-- The reply codes (R185, R196). -/
inductive ReplyCode where
  | done
  | busy
  | badMode
  | badIndex
  | badEntry
  | conflict
  | full
  | noSuch
  | unknownKind
  | aborted
  | noAnswer
  deriving DecidableEq, Repr

/-- The fault summary. R2 names the asset's kind among what the fault summaries report, while the 13 bytes of R197, and R119
and R151 with them, hold no kind; the model follows R197 (log 27). -/
structure Summary where
  id : Nat
  asset : Nat
  severity : Severity
  state : RecordState
  urgency : Nat
  absorbed : Nat
  steps : Nat
  openedDay : Option Nat
  deriving DecidableEq, Repr

inductive StartCause where
  | powerOn
  | full
  | runtime
  deriving DecidableEq, Repr

inductive StormCause where
  | entry
  | calm
  | maintain
  deriving DecidableEq, Repr

/-- The nine kinds of notice and what each carries (R187). -/
inductive Notice where
  | start (cause : StartCause) (mode : Mode)
  | opened (summary : Summary)
  | changed (summary : Summary)
  | absorbed (absorbedId absorbingId : Nat)
  | cleared (id asset : Nat) (manual : Bool)
  | unresolved (outstation code : Nat) (held : Condition)
  | link (outstation : Nat) (online : Bool)
  | storm (on : Bool) (cause : StormCause) (count : Nat)
  | relay (outstation : Nat) (records : List PointRecord)
  deriving DecidableEq, Repr

/-- What a frame of the part carries after its header flag byte: a REPLY with tag, code and data, or a notice. -/
inductive FrameBody where
  | reply (tag : Byte) (code : ReplyCode) (data : List Byte)
  | notice (notice : Notice)
  deriving DecidableEq, Repr

/-- A frame placed in the transmit queue: the address it carries and its body. -/
structure TrunkFrame where
  addr : Byte
  body : FrameBody
  deriving DecidableEq, Repr

/-- The frame in transmission with the header flags it took when it began (R190), and whether it still occupies a
slot of the queue, which a restart frees (R191). -/
structure Transmission where
  frame : TrunkFrame
  lost : Bool
  storm : Bool
  slot : Bool
  deriving DecidableEq, Repr

/-- The trunk unit (section 11.0). `waiting` are the queued frames not yet begun, oldest first. -/
structure Trunk where
  node : Byte
  alternate : Option Byte
  waiting : List TrunkFrame
  sending : Option Transmission
  lost : Bool
  checkFails : Nat
  deriving DecidableEq, Repr

/-- The trunk unit after power-on: the START notice alone in its queue (R178, R180, R188). -/
def Trunk.powerOn : Trunk :=
  { node := 1, alternate := none, waiting := [⟨1, .notice (.start .powerOn .maintain)⟩], sending := none, lost := false,
    checkFails := 0 }

/-! ## The part -/

/-- Every piece of state the manual gives the part, the queue of commands that wait, and `freeCount`, the model's own
count of the free values drawn so far (log 7). `owed` is the work of the latest ticks that its blocks have not done yet
(R172; log 5). -/
structure State where
  resetHeld : Bool
  mode : Mode
  time : TimeBase
  owed : List TickWork
  assets : Table Asset
  outstations : Table Outstation
  lines : Vector Line 4
  points : Table Point
  drops : Nat
  faultProfiles : Vector FaultProfile 16
  loopProfiles : Vector LoopProfile 8
  records : Table FaultRecord
  nextId : Nat
  waiting : List Nat
  walkList : List WalkEntry
  walk : Option Walk
  rebuild : Option Rebuild
  storm : Storm
  beacons : Vector Beacon 4
  trunk : Trunk
  freeCount : Nat
  pending : List Instr
  deriving DecidableEq, Repr

/-- The part after power-on (R178, R179 and the power-on columns of the chapters), nothing commanded yet. -/
def State.reset : State :=
  { resetHeld := false, mode := .maintain, time := { second := 0, runMinute := 0, dayMinute := none }, owed := [],
    assets := [], outstations := [], lines := Vector.replicate 4 .powerOn, points := [], drops := 0,
    faultProfiles := Vector.replicate 16 .powerOn, loopProfiles := Vector.replicate 8 .powerOn, records := [],
    nextId := 1, waiting := [], walkList := [], walk := none, rebuild := none, storm := .powerOn,
    beacons := Vector.replicate 4 .powerOn, trunk := .powerOn, freeCount := 0, pending := [] }

/-- The part has no fault state: every refused directive is answered by a code and every bad frame is discarded
(R184, R181, R38), so no meaning ends in a fault and the type has no member. -/
inductive Fault where
  deriving DecidableEq, Repr

/-- Why a command is refused by the model. -/
inductive Refusal where
  /-- Raised by an arm of exec whose command has no meaning in the model yet (safe); no arm does. -/
  | notModelled (mnemonic : String)
  deriving DecidableEq, Repr

end Sys2Proof.Machine
end

