-- ==== Sys2Proof/Machine/Tables.lean ====
section
/-! DEFINITION. Operations on the part's tables (keyed lists in canonical form), the setters of State's fields, and the
accessors and updates of single entries. -/

namespace Sys2Proof.Machine

/-! ## Tables -/

/-- The canonical form: keys strictly rising, so no two entries share a key. -/
def Table.wf {α : Type} (t : Table α) : Bool := decide ((t.map Prod.fst).Pairwise (· < ·))

/-- The entry under a key. -/
def Table.get? {α : Type} (t : Table α) (k : Nat) : Option α :=
  match t with
  | [] => none
  | e :: rest => if e.1 = k then some e.2 else Table.get? rest k

/-- Is there an entry under the key? -/
def Table.has {α : Type} (t : Table α) (k : Nat) : Bool := (Table.get? t k).isSome

/-- Create or replace the entry under a key, keeping the canonical form. -/
def Table.put {α : Type} (t : Table α) (k : Nat) (x : α) : Table α :=
  match t with
  | [] => [(k, x)]
  | e :: rest =>
    if k < e.1 then (k, x) :: e :: rest else if k = e.1 then (k, x) :: rest else e :: Table.put rest k x

/-- Remove the entry under a key. -/
def Table.del {α : Type} (t : Table α) (k : Nat) : Table α := t.filter fun e => e.1 ≠ k

/-- Change the entry under a key, if there is one. -/
def Table.adjust {α : Type} (t : Table α) (k : Nat) (f : α → α) : Table α :=
  t.map fun e => if e.1 = k then (e.1, f e.2) else e

/-- Change every entry. -/
def Table.mapAll {α : Type} (t : Table α) (f : Nat → α → α) : Table α := t.map fun e => (e.1, f e.1 e.2)

/-- The keys of the entries that pass a test, rising. -/
def Table.keysWhere {α : Type} (t : Table α) (p : Nat → α → Bool) : List Nat :=
  (t.filter fun e => p e.1 e.2).map Prod.fst

/-! ## Setters -/

def State.setResetHeld (s : State) (x : Bool) : State := { s with resetHeld := x }
def State.setMode (s : State) (x : Mode) : State := { s with mode := x }
def State.setTime (s : State) (x : TimeBase) : State := { s with time := x }
def State.setOwed (s : State) (x : List TickWork) : State := { s with owed := x }
def State.setAssets (s : State) (x : Table Asset) : State := { s with assets := x }
def State.setOutstations (s : State) (x : Table Outstation) : State := { s with outstations := x }
def State.setLines (s : State) (x : Vector Line 4) : State := { s with lines := x }
def State.setPoints (s : State) (x : Table Point) : State := { s with points := x }
def State.setDrops (s : State) (x : Nat) : State := { s with drops := x }
def State.setFaultProfiles (s : State) (x : Vector FaultProfile 16) : State := { s with faultProfiles := x }
def State.setLoopProfiles (s : State) (x : Vector LoopProfile 8) : State := { s with loopProfiles := x }
def State.setRecords (s : State) (x : Table FaultRecord) : State := { s with records := x }
def State.setNextId (s : State) (x : Nat) : State := { s with nextId := x }
def State.setWaiting (s : State) (x : List Nat) : State := { s with waiting := x }
def State.setWalkList (s : State) (x : List WalkEntry) : State := { s with walkList := x }
def State.setWalk (s : State) (x : Option Walk) : State := { s with walk := x }
def State.setRebuild (s : State) (x : Option Rebuild) : State := { s with rebuild := x }
def State.setStorm (s : State) (x : Storm) : State := { s with storm := x }
def State.setBeacons (s : State) (x : Vector Beacon 4) : State := { s with beacons := x }
def State.setTrunk (s : State) (x : Trunk) : State := { s with trunk := x }
def State.setFreeCount (s : State) (x : Nat) : State := { s with freeCount := x }
def State.setPending (s : State) (x : List Instr) : State := { s with pending := x }

/-! ## Single entries -/

/-- The present asset under a number. -/
def State.asset? (s : State) (a : Nat) : Option Asset := s.assets.get? a

/-- Create or replace an asset record. -/
def State.putAsset (s : State) (a : Nat) (x : Asset) : State := s.setAssets (s.assets.put a x)

/-- Change an asset record, if present. -/
def State.adjustAsset (s : State) (a : Nat) (f : Asset → Asset) : State := s.setAssets (s.assets.adjust a f)

/-- The present outstation under an index. -/
def State.outstation? (s : State) (o : Nat) : Option Outstation := s.outstations.get? o

/-- Change an outstation record, if present. -/
def State.adjustOutstation (s : State) (o : Nat) (f : Outstation → Outstation) : State :=
  s.setOutstations (s.outstations.adjust o f)

/-- The line unit LU(k+1). -/
def State.line (s : State) (k : Fin 4) : Line := s.lines.get k

/-- Change one line unit. -/
def State.adjustLine (s : State) (k : Fin 4) (f : Line → Line) : State :=
  s.setLines (s.lines.set k.val (f (s.lines.get k)) k.isLt)

/-- The fault profile under a number. -/
def State.faultProfile (s : State) (p : Fin 16) : FaultProfile := s.faultProfiles.get p

/-- The loop profile under a number. -/
def State.loopProfile (s : State) (p : Fin 8) : LoopProfile := s.loopProfiles.get p

/-- The beacon of the given number less one. -/
def State.beacon (s : State) (b : Fin 4) : Beacon := s.beacons.get b

/-- Change one beacon. -/
def State.adjustBeacon (s : State) (b : Fin 4) (f : Beacon → Beacon) : State :=
  s.setBeacons (s.beacons.set b.val (f (s.beacons.get b)) b.isLt)

/-- The key of a point: outstation index and point code 0..1023 (section 3.1). The keys of one outstation stand
together, in ascending point code. -/
def pointKey (o code : Nat) : Nat := 1024 * o + code

/-- The outstation index of a point key. -/
def pointOutstation (key : Nat) : Nat := key / 1024

/-- Is the entry RESOLVED (section 3.1)? -/
def Point.resolved : Point → Bool
  | .pending _ _ => false
  | _ => true

/-- The asset a point names in role STATUS. -/
def Point.statusAsset : Point → Option Nat
  | .status a _ => some a
  | _ => none

/-- The asset a point names in role COUNT. -/
def Point.countAsset : Point → Option Nat
  | .count a _ => some a
  | _ => none

/-- The asset a RESOLVED point names in either role. -/
def Point.namedAsset : Point → Option Nat
  | .status a _ => some a
  | .count a _ => some a
  | .pending _ _ => none

/-- The occupancy counts of the point map (R45). -/
def State.pendingPoints (s : State) : Nat := (s.points.filter fun e => !e.2.resolved).length

/-- The number of fault records in state OPEN (R98). -/
def State.openRecords (s : State) : Nat := (s.records.filter fun e => e.2.state = .opened).length

/-- A saturating rise by 1 of a 16-bit counter (R39, R52, R161, R181). -/
def bump (n : Nat) : Nat := min Config.counterBound (n + 1)

end Sys2Proof.Machine
end

