-- ==== Sys2Proof/Machine/Tree.lean ====
section
/-! DEFINITION. The parent forest of the asset table (section 1.4, R6, R16), and which of two conditions is worse. The
recursions are bounded by the greatest depth of the tree, which every ASSET LOAD keeps (R5). -/

namespace Sys2Proof.Machine

/-- The number of an asset's parent. -/
def State.parentOf (s : State) (a : Nat) : Option Nat := (s.asset? a).bind fun x => x.config.parent

/-- The children of an asset in ascending number (R6). -/
def State.childrenOf (s : State) (a : Nat) : List Nat := s.assets.keysWhere fun _ x => x.config.parent = some a

/-- Has the asset any child (R16)? -/
def State.hasChild (s : State) (a : Nat) : Bool := !(s.childrenOf a).isEmpty

/-- The roots in ascending number. -/
def State.roots (s : State) : List Nat := s.assets.keysWhere fun _ x => x.config.parent = none

/-- The ancestors of an asset, nearest first, at most `fuel` of them. -/
def ancestorsUpTo (s : State) (fuel a : Nat) : List Nat :=
  match fuel with
  | 0 => []
  | f + 1 =>
    match s.parentOf a with
    | none => []
    | some p => p :: ancestorsUpTo s f p

/-- The ancestors of an asset, nearest first. -/
def State.ancestorsOf (s : State) (a : Nat) : List Nat := ancestorsUpTo s Config.maxDepth a

/-- The depth of an asset, both ends of the path counted (section 1.4). -/
def State.depthOf (s : State) (a : Nat) : Nat := (s.ancestorsOf a).length + 1

/-- The descendants of an asset in depth-first preorder, children in ascending number, at most `fuel` levels. -/
def descendantsUpTo (s : State) (fuel a : Nat) : List Nat :=
  match fuel with
  | 0 => []
  | f + 1 => (s.childrenOf a).flatMap fun c => c :: descendantsUpTo s f c

/-- The descendants of an asset in depth-first preorder (section 1.4). -/
def State.descendantsOf (s : State) (a : Nat) : List Nat := descendantsUpTo s Config.maxDepth a

/-- The height of an asset, measured at most `fuel` levels down. -/
def heightUpTo (s : State) (fuel a : Nat) : Nat :=
  match fuel with
  | 0 => 1
  | f + 1 => ((s.childrenOf a).map fun c => heightUpTo s f c + 1).foldl max 1

/-- The height of an asset's subtree (section 1.4). -/
def State.heightOf (s : State) (a : Nat) : Nat := heightUpTo s Config.maxDepth a

/-- The fault ID field of an asset. -/
def State.faultIdOf (s : State) (a : Nat) : Option Nat := (s.asset? a).bind fun x => x.faultId

/-- The absorbed-by field of an asset. -/
def State.absorbedByOf (s : State) (a : Nat) : Option Nat := (s.asset? a).bind fun x => x.absorbedBy

/-- The highest ancestor holding a fault record: the one nearest the root (R16). -/
def State.highestHolder (s : State) (a : Nat) : Option Nat :=
  (s.ancestorsOf a).reverse.find? fun p => (s.faultIdOf p).isSome

/-- Every present asset in the order of the rebuild: the roots ascending, after each its subtree in preorder (R138). -/
def State.forest (s : State) : List Nat := s.roots.flatMap fun r => r :: s.descendantsOf r

/-- The asset the rebuild visits after the given one, or first (R138). -/
def State.rebuildNext (s : State) (last : Option Nat) : Option Nat :=
  match last with
  | none => s.forest.head?
  | some v => ((s.forest.dropWhile fun x => x ≠ v).drop 1).head?

/-- The children of `parent` numbered above `c`: the first of them (R130). -/
def State.nextSibling (s : State) (parent c : Nat) : Option Nat := (s.childrenOf parent).find? fun x => c < x

/-- The cursor of the next visit below `parent` (R130): into the children of the last visited asset, else to the next
sibling, else one level up. A number that is no longer a child of the number before it counts as the last visited
asset with no children, and the numbers after it are dropped. Absent when the subtree is done. -/
def nextCursor (s : State) (parent : Nat) (cursor : List Nat) : Option (List Nat) :=
  match cursor with
  | [] => (s.childrenOf parent).head?.map fun x => [x]
  | c :: rest =>
    let deeper := if (s.childrenOf parent).contains c then nextCursor s c rest else none
    match deeper with
    | some cur => some (c :: cur)
    | none => (s.nextSibling parent c).map fun x => [x]

/-! ## Conditions -/

/-- The place of a condition in the order of 00_scope. -/
def Condition.rank : Condition → Nat
  | .unknown => 0
  | .ok => 1
  | .degraded => 2
  | .fail => 3

/-- The worse of two conditions. -/
def Condition.worse (x y : Condition) : Condition := if x.rank < y.rank then y else x

/-- The worst of a list of conditions, UNKNOWN for none (R13). -/
def worstOf (cs : List Condition) : Condition := cs.foldl Condition.worse .unknown

/-- The link condition: UNKNOWN exactly while NEW, OK while ONLINE, FAIL while SILENT (R20). -/
def Comms.linkCondition : Comms → Condition
  | .new => .unknown
  | .online => .ok
  | .silent => .fail

/-- The conditions that count for an asset at a sample: its STATUS points, the outstations that name it as link asset,
and for a LOOP its loop-check result (R13). -/
def State.sourcesOf (s : State) (a : Nat) (x : Asset) : List Condition :=
  (s.points.filterMap fun e =>
      match e.2 with
      | .status b c => if b = a then some c else none
      | _ => none)
    ++ (s.outstations.filterMap fun e => if e.2.config.link = some a then some e.2.comms.linkCondition else none)
    ++ (match x.window with
      | some w => [w.result]
      | none => [])

/-- The worst condition w of an asset (R13). -/
def State.worstCondition (s : State) (a : Nat) (x : Asset) : Condition := worstOf (s.sourcesOf a x)

end Sys2Proof.Machine
end

