-- ==== Sys2Proof/Machine/Flags.lean ====
section
/-! DEFINITION. Everything the part decides from its state at the moment it is asked: line states, the FULL and due
tests of a line, the running second, notice ticks, urgency and the dispatch order, and the beacon sources. -/

namespace Sys2Proof.Machine

/-! ## Time -/

/-- The running second: run-minute times 60 plus the second count (R171). -/
def State.runningSecond (s : State) : Nat := s.time.runMinute * 60 + s.time.second

/-- A minute tick is a notice tick outside storm, and in storm when the run-minute is a multiple of 5 (R154). -/
def State.noticeTick (s : State) : Bool := !s.storm.on || s.time.runMinute % 5 == 0

/-! ## Lines -/

/-- The four states of a line (section 2.2). -/
inductive LineState where
  | off
  | halted
  | ready
  | awaiting
  deriving DecidableEq, Repr

/-- Is a transaction's outstation awaited: has its frame been sent once (R19, R29, R30; log 10)? -/
def Transaction.awaited (t : Transaction) : Bool := t.phase ≠ .sending

/-- The state of a line follows its personality, the mode and its transaction (R19). -/
def State.lineState (s : State) (k : Fin 4) : LineState :=
  if (s.line k).settings.personality = .off then .off
  else if s.mode ≠ .run then .halted
  else match (s.line k).transaction with
    | some t => if t.awaited then .awaiting else .ready
    | none => .ready

/-- May the line choose a transaction: is it READY with none being sent (R27, R34)? -/
def State.lineFree (s : State) (k : Fin 4) : Bool := s.lineState k = .ready ∧ (s.line k).transaction = none

/-- The transaction that awaits an outstation's answer on the line, if any (R19). -/
def State.awaitedOn (s : State) (k : Fin 4) : Option Transaction :=
  match (s.line k).transaction with
  | some t => if t.awaited ∧ s.lineState k = .awaiting then some t else none
  | none => none

/-- The line of an outstation index (R20). -/
def lineOf (o : Nat) : Nat := o / 32

/-- Insert a station by ascending station address. -/
def insertStation (e : Nat × Outstation) (l : List (Nat × Outstation)) : List (Nat × Outstation) :=
  match l with
  | [] => [e]
  | e' :: rest => if e.2.config.address ≤ e'.2.config.address then e :: e' :: rest else e' :: insertStation e rest

/-- The present outstations of a line in ascending station address, with their indices (R27). -/
def State.stations (s : State) (k : Fin 4) : List (Nat × Outstation) :=
  (s.outstations.filter fun e => lineOf e.1 = k.val).foldr insertStation []

/-- The present outstation of a line with a station address (R38, test 4). -/
def State.stationAt (s : State) (k : Fin 4) (address : Nat) : Option (Nat × Outstation) :=
  (s.stations k).find? fun e => e.2.config.address = address

/-- The station address at the poll position, as the outstation table stands (R27, R43). The position of an outstation that
is no longer present is the start of the cycle, and a record loaded afresh under its index stands in its place (log 18). -/
def State.pollAddress (s : State) (k : Fin 4) : Option Nat :=
  ((s.line k).pollPosition.bind s.outstation?).map fun x => x.config.address

/-- The next outstation of the poll cycle after a station address, a new cycle beginning at the lowest address (R27). -/
def nextStation (stations : List (Nat × Outstation)) (position : Option Nat) : Option (Nat × Outstation) :=
  match position with
  | none => stations.head?
  | some p =>
    match stations.find? fun e => p < e.2.config.address with
    | some e => some e
    | none => stations.head?

/-- A SWEEP to the outstation carries FULL when it is NEW or SILENT or its full-due flag is set (R31). -/
def Outstation.sweptFull (x : Outstation) : Bool := x.comms ≠ .online || x.fullDue

/-- The integrity test at a running second: has the outstation, heard before, been quiet for G or more (R33)? -/
def Outstation.quietFor (x : Outstation) (g now : Nat) : Bool :=
  match x.lastHeard with
  | some t => t + g ≤ now
  | none => false

/-- Is the outstation due a check on its EXCEPTION line (R33)? The rule's table makes full-due decisive in every comms
state; its worked example does not (log 9). -/
def Outstation.checkDue (x : Outstation) : Bool :=
  x.fullDue ||
    (match x.comms with
    | .silent => x.countdown == 0
    | _ => x.integrityDue)

/-! ## Urgency and the dispatch queue -/

/-- The urgency formula (R143). -/
def urgencyOf (p : FaultProfile) (severity : Severity) (weight absorbed steps : Nat) : Nat :=
  min 65535
    ((match severity with
        | .fail => p.baseFail
        | .degraded => p.baseDegraded) * weight / 16
      + min absorbed 255 * p.perAbsorbed + steps * p.perStep)

/-- Does one record stand before another in the dispatch queue (R149)? -/
def ranksBefore (e e' : Nat × FaultRecord) : Bool :=
  decide (e'.2.urgency < e.2.urgency) ||
    (e.2.urgency == e'.2.urgency &&
      (decide (e.2.openedRun < e'.2.openedRun) || (e.2.openedRun == e'.2.openedRun && decide (e.1 ≤ e'.1))))

/-- Insert a record at its rank. -/
def insertRanked (e : Nat × FaultRecord) (q : List (Nat × FaultRecord)) : List (Nat × FaultRecord) :=
  match q with
  | [] => [e]
  | e' :: rest => if ranksBefore e e' then e :: e' :: rest else e' :: insertRanked e rest

/-- The dispatch queue, head first (R149). -/
def State.dispatchQueue (s : State) : List (Nat × FaultRecord) := s.records.foldr insertRanked []

/-- The rank of a record, the head being rank 1 (R149). -/
def State.rankOf (s : State) (id : Nat) : Nat := (s.dispatchQueue.findIdx fun e => e.1 = id) + 1

/-- The fault summary of a record (R197). -/
def FaultRecord.summary (r : FaultRecord) (id : Nat) : Summary :=
  { id := id, asset := r.asset, severity := r.severity, state := r.state, urgency := r.urgency, absorbed := r.absorbed,
    steps := r.steps, openedDay := r.openedDay }

/-! ## Beacon sources -/

/-- The source value of a beacon with the given source and argument (R167). -/
def State.sourceValue (s : State) (source : BeaconSource) (argument : Nat) : Bool :=
  match source with
  | .off => false
  | .on => true
  | .headUrgency =>
    match s.dispatchQueue.head? with
    | some e => decide (argument ≤ e.2.urgency)
    | none => false
  | .anyOpen => s.openRecords ≠ 0
  | .storm => s.storm.on
  | .tableFull => !s.waiting.isEmpty
  | .lineSilent => s.outstations.any fun e => lineOf e.1 + 1 = argument ∧ e.2.comms = .silent

end Sys2Proof.Machine
end

