-- ==== Sys2Proof/Machine/Formats.lean ====
section
/-! DEFINITION. The bytes of frames, notices, READ replies and STATUS (chapter 12). -/

namespace Sys2Proof.Machine

/-! ## Fields -/

/-- One byte. -/
def be8 (n : Nat) : List Byte := [BitVec.ofNat 8 n]

/-- Two bytes, high byte first. -/
def be16 (n : Nat) : List Byte := [BitVec.ofNat 8 (n / 256), BitVec.ofNat 8 n]

/-- Four bytes, high byte first. -/
def be32 (n : Nat) : List Byte := be16 (n / 65536) ++ be16 n

/-- A 16-bit word, high byte first. -/
def beWord (w : Word) : List Byte := be16 w.toNat

/-- Flags and two-valued fields read 1 for set, true, on or yes, and 0 otherwise (R197). -/
def beFlag (b : Bool) : List Byte := if b then [1] else [0]

/-- An optional word that reads 0xFFFF while absent (R197). -/
def be16Absent (n : Option Nat) : List Byte := be16 (n.getD 0xFFFF)

/-! ## The check (R194) -/

/-- One bit of the check register: shift left, and subtract the polynomial 0x1021 when a 1 leaves. -/
def crcShift (r : BitVec 16) : BitVec 16 := if r.getLsbD 15 then (r <<< 1) ^^^ 0x1021 else r <<< 1

/-- One byte into the check register, most significant bit first. -/
def crcByte (r : BitVec 16) (b : Byte) : BitVec 16 :=
  let r0 := r ^^^ (b ++ (0 : BitVec 8))
  crcShift (crcShift (crcShift (crcShift (crcShift (crcShift (crcShift (crcShift r0)))))))

/-- The check of the covered bytes: address, kind, payload length and payload (R194). -/
def crc16 (bytes : List Byte) : BitVec 16 := bytes.foldl crcByte 0xFFFF

/-- The start byte of every frame. -/
def startByte : Byte := 0x5A

/-- The bytes of a frame on a line: start byte, address, kind, payload length, payload and check (section 12.1). -/
def frameBytes (addr kind : Byte) (payload : List Byte) : List Byte :=
  let covered := addr :: kind :: BitVec.ofNat 8 payload.length :: payload
  startByte :: covered ++ beWord (crc16 covered)

/-! ## Codes -/

def Condition.code : Condition → Nat
  | .unknown => 0
  | .ok => 1
  | .degraded => 2
  | .fail => 3

def Severity.code : Severity → Nat
  | .degraded => 2
  | .fail => 3

def RecordState.code : RecordState → Nat
  | .opened => 0
  | .acked => 1

def Mode.code : Mode → Nat
  | .maintain => 0
  | .entering => 1
  | .run => 2

def Kind.code : Kind → Nat
  | .feeder => 0
  | .cabinet => 1
  | .junction => 2
  | .lamp => 3
  | .loop => 4
  | .sign => 5

def Personality.code : Personality → Nat
  | .off => 0
  | .polled => 1
  | .exception => 2

def LineState.code : LineState → Nat
  | .off => 0
  | .halted => 1
  | .ready => 2
  | .awaiting => 3

def TransactionKind.code : TransactionKind → Nat
  | .sweep _ => 1
  | .check _ => 2
  | .order _ => 3

def RelayPolicy.code : RelayPolicy → Nat
  | .all => 0
  | .changes => 1
  | .none => 2

def Comms.code : Comms → Nat
  | .new => 0
  | .online => 1
  | .silent => 2

def BeaconSource.code : BeaconSource → Nat
  | .off => 0
  | .on => 1
  | .headUrgency => 2
  | .anyOpen => 3
  | .storm => 4
  | .tableFull => 5
  | .lineSilent => 6

def Stretch.code : Stretch → Nat
  | .unstretched => 0
  | .s1 => 1
  | .s2 => 2
  | .s5 => 3
  | .s10 => 4
  | .s30 => 5
  | .s60 => 6
  | .latched => 7

def WalkKind.code : WalkKind → Nat
  | .absorb => 1
  | .release => 2

/-- The reply codes (R196). -/
def ReplyCode.code : ReplyCode → Nat
  | .done => 0
  | .busy => 1
  | .badMode => 2
  | .badIndex => 3
  | .badEntry => 4
  | .conflict => 5
  | .full => 6
  | .noSuch => 7
  | .unknownKind => 8
  | .aborted => 9
  | .noAnswer => 10

def StartCause.code : StartCause → Nat
  | .powerOn => 0
  | .full => 1
  | .runtime => 2

def StormCause.code : StormCause → Nat
  | .entry => 0
  | .calm => 1
  | .maintain => 2

/-! ## Trunk frames of the part (R196, R197) -/

/-- The 13 bytes of a fault summary (R197). The kind that R2 has the fault summaries report has no byte there (log 27). -/
def Summary.bytes (x : Summary) : List Byte :=
  be16 x.id ++ be16 x.asset ++ be8 x.severity.code ++ be8 x.state.code ++ be16 x.urgency ++ be16 x.absorbed
    ++ be8 x.steps ++ be16Absent x.openedDay

/-- A point record as received (R60, R195). -/
def PointRecord.bytes (r : PointRecord) : List Byte :=
  beWord r.word ++ (match r.count with
    | some c => beWord c
    | none => [])

/-- The kind byte of a notice (R196). -/
def Notice.kind : Notice → Byte
  | .start _ _ => 0x40
  | .opened _ => 0x41
  | .changed _ => 0x42
  | .absorbed _ _ => 0x43
  | .cleared _ _ _ => 0x44
  | .unresolved _ _ _ => 0x45
  | .link _ _ => 0x46
  | .storm _ _ _ => 0x47
  | .relay _ _ => 0x48

/-- The fields of a notice after the header byte (R196). -/
def Notice.bytes : Notice → List Byte
  | .start cause mode => be8 cause.code ++ be8 mode.code
  | .opened x => x.bytes
  | .changed x => x.bytes
  | .absorbed d a => be16 d ++ be16 a
  | .cleared id a manual => be16 id ++ be16 a ++ beFlag manual
  | .unresolved o code held => be8 o ++ be16 code ++ be8 held.code
  | .link o online => be8 o ++ beFlag online
  | .storm on cause n => beFlag on ++ be8 cause.code ++ be16 (min Config.counterBound n)
  | .relay o rs => be8 o ++ be8 rs.length ++ rs.flatMap PointRecord.bytes

/-- The kind byte of a frame the part sends (R196). -/
def FrameBody.kind : FrameBody → Byte
  | .reply _ _ _ => 0x30
  | .notice n => n.kind

/-- The payload of a frame after its header flag byte (R196). -/
def FrameBody.bytes : FrameBody → List Byte
  | .reply tag code data => tag :: be8 code.code ++ data
  | .notice n => n.bytes

/-- The header flag byte: bit 0 the lost flag, bit 1 the storm flag (R190, R196). -/
def headerByte (lost storm : Bool) : Byte := BitVec.ofNat 8 ((if lost then 1 else 0) + (if storm then 2 else 0))

/-- The bytes of the frame in transmission, start byte to check (R190, R194, R196). -/
def Transmission.bytes (t : Transmission) : List Byte :=
  frameBytes t.frame.addr t.frame.body.kind (headerByte t.lost t.storm :: t.frame.body.bytes)

/-! ## Field frames of the part (R195) -/

/-- The bytes a line sends for a transaction to a station: a SWEEP with its FULL bit, or an ORDER with the entry's
payload (R195). -/
def TransactionKind.frame (kind : TransactionKind) (station : Nat) : List Byte :=
  match kind with
  | .sweep full => frameBytes (BitVec.ofNat 8 station) 0x01 (beFlag full)
  | .check full => frameBytes (BitVec.ofNat 8 station) 0x01 (beFlag full)
  | .order e => frameBytes (BitVec.ofNat 8 station) 0x02 e.payload

/-- The frame a line is sending now, if it is sending one. -/
def State.lineFrame (s : State) (k : Fin 4) : Option (List Byte) :=
  match (s.line k).transaction with
  | some t =>
    if t.phase = .awaiting then none
    else (s.outstation? t.outstation).map fun x => t.kind.frame x.config.address
  | none => none

/-! ## READ replies (R197) -/

/-- The PART entry. -/
def Trunk.partBytes (t : Trunk) : List Byte := [t.node, t.alternate.getD 0xFF]

/-- The six counters in READ order. -/
def LineCounters.bytes (c : LineCounters) : List Byte :=
  be16 c.good ++ be16 c.checkErrors ++ be16 c.overlong ++ be16 c.unknownStation ++ be16 c.strays ++ be16 c.timeouts

/-- The LINE entry (R43). -/
def State.lineBytes (s : State) (k : Fin 4) : List Byte :=
  let l := s.line k
  be8 l.settings.personality.code ++ be8 l.settings.t1 ++ be8 l.settings.n2 ++ be8 l.settings.rv ++ be16 l.settings.g
    ++ be8 l.settings.fmax ++ be8 (s.lineState k).code
    ++ (match s.awaitedOn k with
      | some t => be8 t.outstation ++ be8 t.kind.code
      | none => [0xFF, 0])
    ++ be8 l.queue.length ++ be8 ((s.pollAddress k).getD 0) ++ l.counters.bytes

/-- The last-heard second, modulo 2^32, 0xFFFFFFFF while absent. -/
def lastHeardBytes (t : Option Nat) : List Byte :=
  match t with
  | some n => be32 (n % 4294967296)
  | none => be32 0xFFFFFFFF

/-- The OUTSTATION entry (R44): present byte 0 and 0xFF in each of the 14 later bytes for an absent record. -/
def State.outstationBytes (s : State) (o : Nat) : List Byte :=
  match s.outstation? o with
  | none => 0 :: List.replicate 14 0xFF
  | some x =>
    be8 1 ++ be8 x.config.address ++ be8 x.config.policy.code ++ be16Absent x.config.link ++ be8 x.comms.code ++ be8 x.retry
      ++ lastHeardBytes x.lastHeard ++ be16 x.countdown ++ beFlag x.fullDue ++ be8 x.comms.linkCondition.code

/-- Condition and severity bytes: an absent severity reads 0xFF. -/
def Health.bytes : Health → List Byte
  | .healthy => [0, 0xFF]
  | .faulty sev => 1 :: be8 sev.code

/-- The window flags byte, c, last-window count and loop-check result. -/
def windowBytes (a : Nat) (w : Option Window) : List Byte :=
  match w with
  | none => List.replicate 6 0
  | some x =>
    be8 (128 + (if x.gap then 1 else 0) + (if x.last.isSome then 2 else 0)) ++ be16 x.count
      ++ (match x.last with
        | some n => be16 n
        | none => beWord (Config.absentLastWindow a))
      ++ be8 x.result.code

/-- The ASSET entry (R15): present byte 0 and 0xFF in each later byte for an absent record. -/
def State.assetBytes (s : State) (a : Nat) : List Byte :=
  match s.asset? a with
  | none => 0 :: List.replicate 20 0xFF
  | some x =>
    be8 1 ++ be8 x.config.kind.code ++ be16Absent x.config.parent ++ be8 x.config.weight ++ be8 x.config.faultProfile.val
      ++ be8 (match x.config.loopProfile with
        | some p => p.val
        | none => 0xFF)
      ++ be8 x.integrator ++ x.health.bytes ++ be16Absent x.absorbedBy ++ be16 (x.faultId.getD 0) ++ beFlag x.waiting
      ++ windowBytes a x.window

/-- Count-present and count of a point entry. -/
def pointCountBytes (key : Nat) (n : Option Nat) : List Byte :=
  match n with
  | some v => 1 :: be16 v
  | none => 0 :: beWord (Config.absentPointCount key)

/-- The POINT entry (R64): status, asset, role, condition, count present, count. -/
def State.pointBytes (s : State) (key : Nat) : List Byte :=
  match s.points.get? key with
  | none => [0, 0xFF, 0xFF, 0xFF, 0xFF, 0, 0xFF, 0xFF]
  | some (.status a c) => be8 1 ++ be16 a ++ be8 0 ++ be8 c.code ++ pointCountBytes key none
  | some (.count a b) => be8 1 ++ be16 a ++ [1, 0xFF] ++ pointCountBytes key b
  | some (.pending c n) => [2, 0xFF, 0xFF, 0xFF] ++ be8 c.code ++ pointCountBytes key n

/-- The FAULT-PROFILE entry (R68). -/
def FaultProfile.bytes (p : FaultProfile) : List Byte :=
  be8 p.up ++ be8 p.degrade ++ be8 p.down ++ be8 p.ceiling ++ be8 p.threshold ++ be16 p.baseFail ++ be16 p.baseDegraded
    ++ be8 p.perAbsorbed ++ be8 p.perStep ++ be8 p.interval

/-- One band of a LOOP-PROFILE entry. -/
def Band.bytes (b : Band) : List Byte := be16 b.start ++ be16 b.min ++ be16 b.max

/-- The LOOP-PROFILE entry (R81). -/
def LoopProfile.bytes (p : LoopProfile) : List Byte :=
  be8 p.length ++ be16 p.limit ++ p.band0.bytes ++ p.band1.bytes ++ p.band2.bytes ++ p.band3.bytes

/-- The STORM entry (R159). -/
def Storm.bytes (x : Storm) : List Byte :=
  be8 x.entry ++ be8 x.exit ++ be8 x.calmPeriod ++ beFlag x.on ++ be8 x.calm ++ be16 x.opens

/-- The BEACON entry (R170). -/
def Beacon.bytes (b : Beacon) : List Byte :=
  be8 b.source.code ++ be16 b.argument ++ be8 b.stretch.code ++ beFlag b.value ++ beFlag b.output ++ be8 b.count
    ++ beFlag b.latch

/-! ## LIST, FAULT and STATUS replies -/

/-- The data of a LIST reply: the number of summaries and the summaries (R151, R197). -/
def listBytes (xs : List (Nat × FaultRecord)) : List Byte :=
  be8 xs.length ++ xs.flatMap fun e => (e.2.summary e.1).bytes

/-- The data of a FAULT reply: the summary, then opened run-minute, m, console, change-due and rank (R121, R197). -/
def State.faultBytes (s : State) (id : Nat) (r : FaultRecord) : List Byte :=
  (r.summary id).bytes ++ be32 r.openedRun ++ be8 r.minutes ++ be8 (r.console.getD 0) ++ beFlag r.changeDue
    ++ be16 (s.rankOf id)

/-- The frames the transmit queue holds, the frame in transmission included while it occupies a slot (R188). -/
def Trunk.occupancy (t : Trunk) : Nat :=
  t.waiting.length + (match t.sending with
    | some x => if x.slot then 1 else 0
    | none => 0)

/-- Walk kind and asset of a STATUS reply: the rebuild with the last asset visited, the walk in flight with its root, or
none (R128, R198). -/
def State.walkBytes (s : State) : List Byte :=
  match s.rebuild, s.walk with
  | some b, _ => be8 3 ++ be16Absent b.last
  | none, some w => be8 w.kind.code ++ be16 w.root
  | none, none => be8 0 ++ be16 0xFFFF

/-- The data of a STATUS reply (R193, R198). -/
def State.statusBytes (s : State) : List Byte :=
  (be8 s.mode.code ++ be8 s.time.second ++ be32 s.time.runMinute ++ be16Absent s.time.dayMinute
      ++ beFlag s.time.dayMinute.isSome)
    ++ (beFlag s.storm.on ++ be8 s.storm.calm ++ be16 s.storm.opens)
    ++ (be16 s.records.length ++ be16 s.openRecords ++ be16 s.waiting.length)
    ++ (be16 s.walkList.length ++ s.walkBytes)
    ++ (be16 s.points.length ++ be16 s.pendingPoints)
    ++ (be8 s.trunk.occupancy ++ beFlag s.trunk.lost ++ be16 s.trunk.checkFails)
    ++ ((s.line 0).counters.bytes ++ (s.line 1).counters.bytes ++ (s.line 2).counters.bytes ++ (s.line 3).counters.bytes
      ++ be16 s.drops)

end Sys2Proof.Machine
end

