-- ==== Sys2Proof/Machine/Operands.lean ====
section
/-! DEFINITION. Every operand form: the tag and the fields of a directive's payload, the codes of table entries, and the
point records of a TALLY (R195, R196, R197). Fields of two bytes have the high byte first. -/

namespace Sys2Proof

/-- The tag a reply echoes; a payload without one is answered with tag 0 (R196). -/
def Request.tag : Request → Byte
  | .empty => 0
  | .tagged tag _ => tag

/-- The bytes after the tag; none when the payload is empty (R196). -/
def Request.fields : Request → List Byte
  | .empty => []
  | .tagged _ fields => fields

/-- The tag a reply echoes (R196). -/
def CodedRequest.tag : CodedRequest → Byte
  | .empty => 0
  | .codeMissing tag => tag
  | .codeUnknown tag => tag
  | .coded tag _ => tag

/-- The bytes after the code when the code is the row's own. -/
def CodedRequest.fields? : CodedRequest → Option (List Byte)
  | .coded _ fields => some fields
  | _ => none

/-- The tag a reply echoes (R196). -/
def StatusRequest.tag : StatusRequest → Byte
  | .empty => 0
  | .optionMissing tag => tag
  | .given tag => tag

/-- Does the payload hold the clear option (R193)? -/
def StatusRequest.hasOption : StatusRequest → Bool
  | .given _ => true
  | _ => false

namespace Machine

/-- The byte at an offset of a payload. -/
def byteAt (fs : List Byte) (i : Nat) : Nat := (fs.getD i 0).toNat

/-- The two-byte field at an offset, high byte first (chapter 12). -/
def wordAt (fs : List Byte) (i : Nat) : Nat := 256 * byteAt fs i + byteAt fs (i + 1)

/-- A field that reads 0xFFFF while absent (R197). -/
def absentWordAt (fs : List Byte) (i : Nat) : Option Nat := if wordAt fs i = 0xFFFF then none else some (wordAt fs i)

/-! ## Codes (R197) -/

def Kind.ofCode : Nat → Option Kind
  | 0 => some .feeder
  | 1 => some .cabinet
  | 2 => some .junction
  | 3 => some .lamp
  | 4 => some .loop
  | 5 => some .sign
  | _ => none

def Personality.ofCode : Nat → Option Personality
  | 0 => some .off
  | 1 => some .polled
  | 2 => some .exception
  | _ => none

def RelayPolicy.ofCode : Nat → Option RelayPolicy
  | 0 => some .all
  | 1 => some .changes
  | 2 => some .none
  | _ => Option.none

def BeaconSource.ofCode : Nat → Option BeaconSource
  | 0 => some .off
  | 1 => some .on
  | 2 => some .headUrgency
  | 3 => some .anyOpen
  | 4 => some .storm
  | 5 => some .tableFull
  | 6 => some .lineSilent
  | _ => none

def Stretch.ofCode : Nat → Option Stretch
  | 0 => some .unstretched
  | 1 => some .s1
  | 2 => some .s2
  | 3 => some .s5
  | 4 => some .s10
  | 5 => some .s30
  | 6 => some .s60
  | 7 => some .latched
  | _ => none

/-- The minimum on-time T of a stretch in seconds, absent for NONE and LATCHED (R168). -/
def Stretch.seconds : Stretch → Option Nat
  | .unstretched => none
  | .s1 => some 1
  | .s2 => some 2
  | .s5 => some 5
  | .s10 => some 10
  | .s30 => some 30
  | .s60 => some 60
  | .latched => none

/-- The condition of the two low bits of a point record's word (R195). -/
def Condition.ofBits : BitVec 2 → Condition
  | 0 => .unknown
  | 1 => .ok
  | 2 => .degraded
  | 3 => .fail

/-! ## Table entries of LOAD (R197) -/

/-- Bring a value into a range (section 2.1). -/
def clamp (lo hi n : Nat) : Nat := max lo (min hi n)

/-- The settings of a LINE LOAD from offset 1, clamped (section 2.1, R18); absent for an unknown personality. -/
def readLineSettings (fs : List Byte) : Option LineSettings :=
  (Personality.ofCode (byteAt fs 1)).map fun p =>
    { personality := p, t1 := clamp 1 255 (byteAt fs 2), n2 := clamp 0 7 (byteAt fs 3), rv := clamp 1 15 (byteAt fs 4),
      g := clamp 10 3600 (wordAt fs 5), fmax := clamp 16 255 (byteAt fs 7) }

/-- The configuration of an OUTSTATION LOAD from offset 1; absent when the address or the policy is out of range
(R21, step 4). -/
def readOutstationConfig (fs : List Byte) : Option OutstationConfig :=
  match RelayPolicy.ofCode (byteAt fs 2) with
  | none => none
  | some policy =>
    if 1 ≤ byteAt fs 1 ∧ byteAt fs 1 ≤ 250 then some { address := byteAt fs 1, policy := policy, link := absentWordAt fs 3 }
    else none

/-- The loop profile byte: 0xFF absent, 0..7 a profile (R3); absent outside the option when above 7. -/
def readLoopProfileRef (n : Nat) : Option (Option (Fin 8)) :=
  if n = 0xFF then some none else if h : n < 8 then some (some ⟨n, h⟩) else none

/-- The parent word: 0xFFFF absent, 0..2047 an asset (R3); absent outside the option when above 2047. -/
def readParentRef (n : Nat) : Option (Option Nat) :=
  if n = 0xFFFF then some none else if n < Config.assetCapacity then some (some n) else none

/-- The configuration of an ASSET LOAD from offset 2, with W clamped; absent when a field is refused (R3). -/
def readAssetConfig (fs : List Byte) : Option AssetConfig :=
  match Kind.ofCode (byteAt fs 2), readParentRef (wordAt fs 3), readLoopProfileRef (byteAt fs 7) with
  | some kind, some parent, some loopProfile =>
    if h : byteAt fs 6 < 16 then
      if kind = .loop ↔ loopProfile.isSome = true then
        some { kind := kind, parent := parent, weight := max 1 (byteAt fs 5), faultProfile := ⟨byteAt fs 6, h⟩,
               loopProfile := loopProfile }
      else none
    else none
  | _, _, _ => none

/-- The profile of a FAULT-PROFILE LOAD from offset 1, with Topen stored as the smaller of Topen and Imax; absent when a
field is refused (R66, step 4). -/
def readFaultProfile (fs : List Byte) : Option FaultProfile :=
  let p : FaultProfile :=
    { up := byteAt fs 1, degrade := byteAt fs 2, down := byteAt fs 3, ceiling := byteAt fs 4,
      threshold := min (byteAt fs 5) (byteAt fs 4), baseFail := wordAt fs 6, baseDegraded := wordAt fs 8,
      perAbsorbed := byteAt fs 10, perStep := byteAt fs 11, interval := byteAt fs 12 }
  if 1 ≤ p.up ∧ p.up ≤ 15 ∧ p.degrade ≤ 15 ∧ 1 ≤ p.down ∧ p.down ≤ 15 ∧ 1 ≤ p.ceiling ∧ p.ceiling ≤ 63
      ∧ 1 ≤ byteAt fs 5 ∧ byteAt fs 5 ≤ 63 ∧ p.baseFail ≤ 4095 ∧ p.baseDegraded ≤ 4095 ∧ p.perAbsorbed ≤ 63 then
    some p
  else none

/-- The band at an offset. -/
def readBand (fs : List Byte) (i : Nat) : Band := { start := wordAt fs i, min := wordAt fs (i + 2), max := wordAt fs (i + 4) }

/-- The profile of a LOOP-PROFILE LOAD from offset 1; absent when a field is refused (R80, steps 4 to 6). -/
def readLoopProfile (fs : List Byte) : Option LoopProfile :=
  let p : LoopProfile :=
    { length := byteAt fs 1, limit := wordAt fs 2, band0 := readBand fs 4, band1 := readBand fs 10,
      band2 := readBand fs 16, band3 := readBand fs 22 }
  if [5, 10, 15, 20, 30, 60].contains p.length ∧ 1 ≤ p.limit ∧ p.limit ≤ 4095
      ∧ p.band0.start = 0 ∧ p.band0.start < p.band1.start ∧ p.band1.start < p.band2.start
      ∧ p.band2.start < p.band3.start ∧ p.band3.start ≤ 1439
      ∧ p.band0.min ≤ p.band0.max ∧ p.band1.min ≤ p.band1.max ∧ p.band2.min ≤ p.band2.max
      ∧ p.band3.min ≤ p.band3.max then
    some p
  else none

/-! ## Point records (R195) -/

/-- The point code of a record: bits 15..6 of its word. -/
def PointRecord.code (r : PointRecord) : Nat := (r.word.extractLsb' 6 10).toNat

/-- The condition of a record: bits 1..0 of its word. -/
def PointRecord.condition (r : PointRecord) : Condition := Condition.ofBits (r.word.extractLsb' 0 2)

/-- The count value of a record that carries one. -/
def PointRecord.countValue (r : PointRecord) : Option Nat := r.count.map BitVec.toNat

/-- The first `n` point records of a payload's bytes, each marker giving the start of the next; absent when the bytes
hold fewer. Bytes after the last record are ignored (R195, R38). -/
def readRecords (n : Nat) (bytes : List Byte) : Option (List PointRecord) :=
  match n, bytes with
  | 0, _ => some []
  | m + 1, hi :: lo :: rest =>
    if lo.getLsbD 2 then
      match rest with
      | chi :: clo :: rest' => (readRecords m rest').map fun rs => ⟨hi ++ lo, some (chi ++ clo)⟩ :: rs
      | _ => none
    else (readRecords m rest).map fun rs => ⟨hi ++ lo, none⟩ :: rs
  | _ + 1, _ => none

end Machine
end Sys2Proof
end

