-- ==== Sys2Proof/Machine/Ops.lean ====
section
/-! DEFINITION. The operations every family shares: the transmit queue and its discard rule, notices and replies, the
recognition of a trunk address, the beacons' evaluation at the end of an event, and the shape of a directive. -/

namespace Sys2Proof.Machine

/-! ## The transmit queue (R188, R189) -/

/-- The classes of the transmit queue: RELAY below FAULT below REPLY (R189). -/
def FrameBody.rank : FrameBody → Nat
  | .notice (.relay _ _) => 0
  | .notice _ => 1
  | .reply _ _ _ => 2

/-- The lowest class among waiting frames (R189). -/
def lowestRank (waiting : List TrunkFrame) : Nat := (waiting.map fun f => f.body.rank).foldl min 2

/-- Discard the newest waiting frame of a class (R189). -/
def dropNewest (rank : Nat) (waiting : List TrunkFrame) : List TrunkFrame :=
  (waiting.reverse.eraseP fun f => f.body.rank == rank).reverse

/-- A frame arrives at the transmit queue: it joins at the tail, displaces the newest waiting frame of the lowest class
when it outranks that class, or is discarded; each discard sets the lost flag (R188, R189). -/
def Trunk.place (t : Trunk) (f : TrunkFrame) : Trunk :=
  if t.occupancy < Config.transmitCapacity then { t with waiting := t.waiting ++ [f] }
  else if lowestRank t.waiting < f.body.rank then
    { t with waiting := dropNewest (lowestRank t.waiting) t.waiting ++ [f], lost := true }
  else { t with lost := true }

/-- Place a notice, carrying the node address as it stands (R187). -/
def State.notify (s : State) (n : Notice) : State := s.setTrunk (s.trunk.place ⟨s.trunk.node, .notice n⟩)

/-- Place a reply (R185). -/
def State.reply (s : State) (dest : ReplyTo) (code : ReplyCode) (data : List Byte) : State :=
  s.setTrunk (s.trunk.place ⟨dest.addr, .reply dest.tag code data⟩)

/-- Place a reply where one is owed: a frame on the group address is owed none (R183). -/
def State.replyIfOwed (s : State) (dest : Option ReplyTo) (code : ReplyCode) : State :=
  match dest with
  | some t => s.reply t code []
  | none => s

/-! ## Recognition of trunk addresses (R182, R183) -/

/-- The group address. -/
def groupAddress : Byte := 254

/-- Does the address name this part: its node address, or its alternate address when present (R182)? -/
def State.isOwn (s : State) (addr : Byte) : Bool := addr = s.trunk.node ∨ s.trunk.alternate = some addr

/-! ## Beacons (R166 to R169) -/

/-- A beacon whose source has just become true from false with the output off: output on, with the stretch count loaded
with T + 1, or the latch set (R168, R169). -/
def Beacon.turnOn (b : Beacon) : Beacon :=
  match b.stretch, b.stretch.seconds with
  | .latched, _ => { b with output := true, latch := true }
  | _, some t => { b with output := true, count := t + 1 }
  | _, none => { b with output := true }

/-- A beacon at the end of an event that leaves its source at the given value (R167, R168, R169). -/
def Beacon.settle (b : Beacon) (v : Bool) : Beacon :=
  if v = b.value then b
  else if v then
    if b.output then { b with value := true } else { b with value := true }.turnOn
  else if b.latch ∨ b.count ≠ 0 then { b with value := false }
  else { b with value := false, output := false }

/-- A beacon just loaded, or left by RESTART RUNTIME, with its source at the given value: latch clear and count 0, then
off, or on as if the source had just become true (R166, R170). -/
def Beacon.startAfresh (b : Beacon) (v : Bool) : Beacon :=
  let b0 : Beacon := { b with value := v, output := false, count := 0, latch := false }
  if v then b0.turnOn else b0

/-- Every beacon evaluated at the end of an event (R167). A beacon whose source value has not changed stays as it is. -/
def State.settleBeacons (s : State) : State :=
  s.setBeacons (s.beacons.map fun b => b.settle (s.sourceValue b.source b.argument))

/-! ## The shape of commands -/

/-- A command's effect, which does not come about while the reset input holds the part (R191, log 4). -/
def unlessHeld (s : State) (f : State → State) : Host.Outcome State Fault Refusal :=
  .next (if s.resetHeld then s else f s)

/-- A list in one of its orders, drawn from the free values (log 7). -/
def freeOrder {α : Type} (draw : Nat) : List α → List α
  | [] => []
  | [x] => [x]
  | x :: y :: rest => (freeOrder draw (y :: rest)).insertIdx (Config.freePlace draw rest.length % (rest.length + 2)) x

/-- A directive that is served on the part's own addresses alone: on any other address, the group address among them,
the frame is ignored (R182, R183). -/
def directive (addr tag : Byte) (s : State) (f : ReplyTo → State → State) : Host.Outcome State Fault Refusal :=
  unlessHeld s fun s => if s.isOwn addr then f ⟨addr, tag⟩ s else s

/-- A directive that is also taken on the group address, where no reply is owed (R183). -/
def groupDirective (addr tag : Byte) (s : State) (f : Option ReplyTo → State → State) :
    Host.Outcome State Fault Refusal :=
  unlessHeld s fun s =>
    if s.isOwn addr then f (some ⟨addr, tag⟩) s else if addr = groupAddress then f none s else s

/-- Answer a directive that a check may refuse: the code alone and no change, or the new state and DONE (R184). -/
def State.answer (s : State) (dest : ReplyTo) (result : Except ReplyCode State) : State :=
  match result with
  | .error code => s.reply dest code []
  | .ok t => t.reply dest .done []

/-- Answer a directive that reports: the code alone, or DONE with the data (R185). -/
def State.report (s : State) (dest : ReplyTo) (result : Except ReplyCode (List Byte)) : State :=
  match result with
  | .error code => s.reply dest code []
  | .ok data => s.reply dest .done data

/-- A LOAD or ERASE of a table: BUSY while ENTERING, BAD-ENTRY for a missing or unknown table id, then the owner's own
checks and effect on the bytes after the table id (R186). -/
def tableEdit (addr : Byte) (req : CodedRequest) (s : State) (edit : List Byte → State → Except ReplyCode State) :
    Host.Outcome State Fault Refusal :=
  directive addr req.tag s fun dest s =>
    if s.mode = .entering then s.reply dest .busy []
    else match req.fields? with
      | none => s.reply dest .badEntry []
      | some fs => s.answer dest (edit fs s)

/-- A READ of a table: BAD-ENTRY for a missing or unknown table id, then the owner's report (R186). -/
def tableRead (addr : Byte) (req : CodedRequest) (s : State) (read : List Byte → State → Except ReplyCode (List Byte)) :
    Host.Outcome State Fault Refusal :=
  directive addr req.tag s fun dest s =>
    match req.fields? with
    | none => s.reply dest .badEntry []
    | some fs => s.report dest (read fs s)

/-- The key byte of a table with keys `lo..hi`: BAD-ENTRY when it is missing, BAD-INDEX outside the range (R184). -/
def keyByte (fs : List Byte) (lo hi : Nat) : Except ReplyCode Nat :=
  if fs.length < 1 then .error .badEntry
  else if lo ≤ byteAt fs 0 ∧ byteAt fs 0 ≤ hi then .ok (byteAt fs 0)
  else .error .badIndex

/-- The key of the ASSET table, two bytes (R197). -/
def assetKey (fs : List Byte) : Except ReplyCode Nat :=
  if fs.length < 2 then .error .badEntry
  else if wordAt fs 0 < Config.assetCapacity then .ok (wordAt fs 0)
  else .error .badIndex

/-- The key of the POINT table, an outstation index and a point code (R53, R197). An outstation index above 127 is
BAD-INDEX even when the code is missing, since that check stands first (log 14). -/
def pointKeyOf (fs : List Byte) : Except ReplyCode Nat :=
  if fs.length < 1 then .error .badEntry
  else if 127 < byteAt fs 0 then .error .badIndex
  else if fs.length < 3 then .error .badEntry
  else if 1023 < wordAt fs 1 then .error .badIndex
  else .ok (pointKey (byteAt fs 0) (wordAt fs 1))

/-- The key of a table of `n` records numbered from `lo`, as a Fin. -/
def finKey (n lo : Nat) (fs : List Byte) : Except ReplyCode (Fin n) :=
  if fs.length < 1 then .error .badEntry
  else if h : lo ≤ byteAt fs 0 ∧ byteAt fs 0 - lo < n then .ok ⟨byteAt fs 0 - lo, h.2⟩
  else .error .badIndex

end Sys2Proof.Machine
end

