-- ==== Sys2Proof/Machine/FaultTable.lean ====
section
/-! DEFINITION. The fault table and what it calls on (chapters 4, 6, 7, 8): urgency, the requests of samples and walk
visits, record creation and removal, the waiting list, the walk list, and the sample itself. Each is one shared
operation, whatever command leads to it. -/

namespace Sys2Proof.Machine

/-! ## Urgency (R143 to R146) -/

/-- A record with its urgency recomputed from its inputs; change-due is set when the value differs (R145). -/
def State.refreshed (s : State) (r : FaultRecord) : FaultRecord :=
  match s.asset? r.asset with
  | none => r
  | some x =>
    let u := urgencyOf (s.faultProfile x.config.faultProfile) r.severity x.config.weight r.absorbed r.steps
    if u = r.urgency then r else { r with urgency := u, changeDue := true }

/-- Change a record under its fault ID, if it exists. -/
def State.adjustRecord (s : State) (id : Nat) (f : FaultRecord → FaultRecord) : State :=
  s.setRecords (s.records.adjust id f)

/-- Change the record an asset holds; nothing changes when it holds none (R106). -/
def State.onRecordOf (s : State) (a : Nat) (f : FaultRecord → FaultRecord) : State :=
  match s.faultIdOf a with
  | some id => s.adjustRecord id f
  | none => s

/-- A raise request: n of the asset's record rises by 1 and U is recomputed (R106). -/
def State.raiseOn (s : State) (a : Nat) : State :=
  s.onRecordOf a fun r => s.refreshed { r with absorbed := r.absorbed + 1 }

/-- A lower request: n of the asset's record falls by 1, an n of 0 staying, and U is recomputed (R106). -/
def State.lowerOn (s : State) (a : Nat) : State :=
  s.onRecordOf a fun r => s.refreshed { r with absorbed := r.absorbed - 1 }

/-- Recompute the urgency of the record an asset holds (R10, R145). -/
def State.refreshOn (s : State) (a : Nat) : State := s.onRecordOf a s.refreshed

/-- Send a CHANGED notice for a record as it stands, and clear its change-due flag (R155, R156). -/
def State.sendChanged (s : State) (id : Nat) : State :=
  match s.records.get? id with
  | some r => (s.notify (.changed (r.summary id))).adjustRecord id fun r => { r with changeDue := false }
  | none => s

/-! ## The walk list (R127) -/

/-- A queue request: a new entry joins the tail, or the root's entry takes the kind and keeps its place (R127). -/
def queueEntry (list : List WalkEntry) (root : Nat) (kind : WalkKind) : List WalkEntry :=
  if list.any fun e => e.root = root then list.map fun e => if e.root = root then { e with kind := kind } else e
  else list ++ [⟨root, kind⟩]

/-- Queue a walk rooted at an asset (R127). -/
def State.queueWalk (s : State) (root : Nat) (kind : WalkKind) : State := s.setWalkList (queueEntry s.walkList root kind)

/-! ## Creation (R99 to R103, R120, R135) -/

/-- The fault ID after another: 65535 is followed by 1 (R100). -/
def nextFaultId (id : Nat) : Nat := if id = 65535 then 1 else id + 1

/-- The first candidate that no record holds, from a candidate on, at most `fuel` candidates passed over (R100). -/
def freeIdFrom (records : Table FaultRecord) (fuel candidate : Nat) : Nat :=
  match fuel with
  | 0 => candidate
  | f + 1 => if records.has candidate then freeIdFrom records f (nextFaultId candidate) else candidate

/-- The fault ID the next record takes (R100). The search meets at most as many IDs in use as there are records. -/
def State.freeId (s : State) : Nat := freeIdFrom s.records s.records.length s.nextId

/-- The storm monitor is handed one open (R120, R161). -/
def State.countOpen (s : State) : State := s.setStorm { s.storm with opens := bump s.storm.opens }

/-- The FAULTY descendants of an asset whose absorbed-by names it (R135). -/
def State.faultyNaming (s : State) (a : Nat) : List Nat :=
  (s.descendantsOf a).filter fun d =>
    match s.asset? d with
    | some x => x.health ≠ .healthy ∧ x.absorbedBy = some a
    | none => false

/-- The count at creation: one raise request on the new record for each of these, outside the rebuild (R135). -/
def State.countAtCreation (s : State) (a : Nat) : State :=
  if s.mode = .entering then s else (s.faultyNaming a).foldl (fun s _ => s.raiseOn a) s

/-- A record as it is created for an asset (R99, R103). -/
def State.newRecord (s : State) (a : Nat) (x : Asset) (severity : Severity) : FaultRecord :=
  { asset := a, severity := severity, state := .opened, openedRun := s.time.runMinute, openedDay := s.time.dayMinute,
    steps := 0, minutes := 0, absorbed := 0,
    urgency := urgencyOf (s.faultProfile x.config.faultProfile) severity x.config.weight 0 0, console := none,
    changeDue := false }

/-- Steps 1 to 4 of a creation: the record, its ID in the asset's field, the OPENED notice, and one open (R103). -/
def State.storeRecord (s : State) (a : Nat) (r : FaultRecord) : State :=
  let id := s.freeId
  ((((s.setRecords (s.records.put id r)).setNextId (nextFaultId id)).adjustAsset a fun x =>
      { x with faultId := some id }).notify (.opened (r.summary id))).countOpen

/-- Create a record for a FAULTY asset (R103): with a child, the count at creation and an ABSORB request follow. -/
def State.createRecord (s : State) (a : Nat) : State :=
  match s.asset? a with
  | none => s
  | some x =>
    match x.health with
    | .healthy => s
    | .faulty severity =>
      let t := s.storeRecord a (s.newRecord a x severity)
      if t.hasChild a then (t.countAtCreation a).queueWalk a .absorb else t

/-- An asset joins the tail of the waiting list (R102, R110). -/
def State.joinWaiting (s : State) (a : Nat) : State :=
  (s.setWaiting (s.waiting ++ [a])).adjustAsset a fun x => { x with waiting := true }

/-- An asset leaves the waiting list (R109, R112). -/
def State.leaveWaiting (s : State) (a : Nat) : State :=
  (s.setWaiting (s.waiting.filter fun b => b ≠ a)).adjustAsset a fun x => { x with waiting := false }

/-- A became-faulty or open request (R102, R104). -/
def State.openFault (s : State) (a : Nat) : State :=
  match s.asset? a with
  | none => s
  | some x =>
    match x.absorbedBy with
    | some z => s.raiseOn z
    | none => if s.records.length < Config.recordCapacity then s.createRecord a else s.joinWaiting a

/-! ## Removal (R107 to R113, R118) -/

/-- A freed record serves the head of the waiting list (R111). -/
def State.serveWaiting (s : State) : State :=
  match s.waiting with
  | [] => s
  | a :: rest => ((s.setWaiting rest).adjustAsset a fun x => { x with waiting := false }).createRecord a

/-- Discard a record and make its asset's fault ID absent (R107, R113, R118). -/
def State.discardRecord (s : State) (id a : Nat) : State :=
  (s.setRecords (s.records.del id)).adjustAsset a fun x => { x with faultId := none }

/-- Clear a record: discard, CLEARED notice, a RELEASE request when the asset has a child, and the waiting list served
(R107, R118). -/
def State.clearRecord (s : State) (id a : Nat) (manual : Bool) : State :=
  let t := (s.discardRecord id a).notify (.cleared id a manual)
  (if t.hasChild a then t.queueWalk a .release else t).serveWaiting

/-- A became-healthy request (R107, R108, R109). -/
def State.becameHealthy (s : State) (a : Nat) : State :=
  match s.asset? a with
  | none => s
  | some x =>
    match x.faultId, x.absorbedBy with
    | some id, _ => s.clearRecord id a false
    | none, some z => s.lowerOn z
    | none, none => if x.waiting then s.leaveWaiting a else s

/-- A severity-raised request (R105). -/
def State.severityRaised (s : State) (a : Nat) : State :=
  s.onRecordOf a fun r => { s.refreshed { r with severity := .fail } with changeDue := true }

/-- Absorb the record an asset holds into the record of another (R113). -/
def State.absorbRecord (s : State) (id d absorbing : Nat) : State :=
  ((s.discardRecord id d).notify (.absorbed id absorbing)).serveWaiting

/-! ## The sample (R69 to R73) -/

/-- The integrator step (R70). -/
def integratorStep (p : FaultProfile) (w : Condition) (i : Nat) : Nat :=
  match w with
  | .fail => min p.ceiling (i + p.up)
  | .degraded => min p.ceiling (i + p.degrade)
  | .ok => i - p.down
  | .unknown => i

/-- The debounced condition and severity after the step (R71, R72). -/
def healthStep (p : FaultProfile) (w : Condition) (i : Nat) (h : Health) : Health :=
  match h with
  | .healthy => if p.threshold ≤ i then .faulty (if w = .fail then .fail else .degraded) else .healthy
  | .faulty severity => if i = 0 then .healthy else .faulty (if w = .fail then .fail else severity)

/-- The request a sample hands to the fault table (R73). -/
def State.handChange (s : State) (a : Nat) (before after : Health) : State :=
  match before, after with
  | .healthy, .faulty _ => s.openFault a
  | .faulty _, .healthy => s.becameHealthy a
  | .faulty .degraded, .faulty .fail => s.severityRaised a
  | _, _ => s

/-- An asset as the step of a sample with worst condition w leaves it (R70 to R72). -/
def Asset.sampled (x : Asset) (p : FaultProfile) (w : Condition) : Asset :=
  { x with integrator := integratorStep p w x.integrator,
           health := healthStep p w (integratorStep p w x.integrator) x.health }

/-- One sample of an asset (R69). An asset that is not present is not sampled. -/
def State.sample (s : State) (a : Nat) : State :=
  match s.asset? a with
  | none => s
  | some x =>
    let y := x.sampled (s.faultProfile x.config.faultProfile) (s.worstCondition a x)
    (s.putAsset a y).handChange a x.health y.health

/-- Samples of several assets, one after another (R63). -/
def State.sampleAll (s : State) (as : List Nat) : State := as.foldl State.sample s

/-- The gap flag of a LOOP asset is set (R86). -/
def Asset.withGap (x : Asset) : Asset := { x with window := x.window.map fun w => { w with gap := true } }

/-- The gap flags of every present LOOP are set (R92, R93). -/
def State.gapEveryLoop (s : State) : State := s.setAssets (s.assets.mapAll fun _ x => x.withGap)

end Sys2Proof.Machine
end

