-- ==== Sys2Proof/Machine/LineUnits.lean ====
section
/-! DEFINITION. The line units at work: choosing and sending transactions, reply timers and failures, the second tick's
work, DOWNLINK and RESYNC, and what the entry to MAINTAIN does to a line (R25 to R36, R40, R41). -/

namespace Sys2Proof.Machine

/-- Change the counters of a line. -/
def State.countOn (s : State) (k : Fin 4) (f : LineCounters → LineCounters) : State :=
  s.adjustLine k fun l => { l with counters := f l.counters }

/-- Set the transaction a line has in hand. -/
def State.setTransaction (s : State) (k : Fin 4) (t : Option Transaction) : State :=
  s.adjustLine k fun l => { l with transaction := t }

/-! ## Choosing (R27, R28, R34) -/

/-- The line begins sending a transaction to an outstation. -/
def State.beginTransaction (s : State) (k : Fin 4) (kind : TransactionKind) (o : Nat) (previous : Previous) : State :=
  s.adjustLine k fun l =>
    { l with transaction := some { kind := kind, outstation := o, phase := .sending, timer := none },
             previous := some previous }

/-- The oldest downlink entry leaves the queue and is sent as an ORDER (R36). -/
def State.beginOrder (s : State) (k : Fin 4) (e : Downlink) : State :=
  (s.adjustLine k fun l => { l with queue := l.queue.tail }).beginTransaction k (.order e) e.outstation .order

/-- Set the silent revisit countdown of an outstation. -/
def State.setCountdown (s : State) (o n : Nat) : State := s.adjustOutstation o fun x => { x with countdown := n }

/-- Set the poll position of a line. -/
def State.setPollPosition (s : State) (k : Fin 4) (o : Nat) : State :=
  s.adjustLine k fun l => { l with pollPosition := some o }

/-- Advance the poll position until an outstation is to be swept, at most `fuel` positions (R27, R28). -/
def advancePoll (fuel : Nat) (k : Fin 4) (s : State) : State :=
  match fuel with
  | 0 => s
  | f + 1 =>
    match nextStation (s.stations k) (s.pollAddress k) with
    | none => s
    | some (o, x) =>
      let t := s.setPollPosition k o
      if x.comms ≠ .silent then t.beginTransaction k (.sweep x.sweptFull) o .sweep
      else if x.countdown ≤ 1 then
        (t.setCountdown o (s.line k).settings.rv).beginTransaction k (.sweep x.sweptFull) o .sweep
      else advancePoll f k (t.setCountdown o (x.countdown - 1))

/-- Positions enough for a countdown to reach 0: one cycle more than the greatest countdown (R28, log 25). -/
def State.pollFuel (s : State) (k : Fin 4) : Nat :=
  (s.stations k).length * (((s.stations k).map fun e => e.2.countdown).foldl max 0 + 1)

/-- A READY POLLED line chooses: an ORDER unless the previous transaction was one, else the next SWEEP (R27). -/
def State.choosePolled (s : State) (k : Fin 4) : State :=
  match (s.line k).queue, (s.line k).previous with
  | e :: _, some .sweep => s.beginOrder k e
  | e :: _, none => s.beginOrder k e
  | _, _ => advancePoll (s.pollFuel k) k s

/-- The due check of lowest station address on an EXCEPTION line (R33, R34). -/
def State.firstDue (s : State) (k : Fin 4) : Option (Nat × Outstation) :=
  (s.stations k).find? fun e => e.2.checkDue

/-- A READY EXCEPTION line chooses: of an ORDER and a due check, the ORDER unless the previous transaction was one
(R34). -/
def State.chooseException (s : State) (k : Fin 4) : State :=
  match (s.line k).queue, s.firstDue k with
  | [], none => s
  | e :: _, none => s.beginOrder k e
  | [], some (o, x) => s.beginTransaction k (.check x.sweptFull) o .sweep
  | e :: _, some (o, x) =>
    if (s.line k).previous = some .order then s.beginTransaction k (.check x.sweptFull) o .sweep else s.beginOrder k e

/-- POLL_CHOOSE: no effect unless the line is POLLED and free to choose (R27, log 16). -/
def execPollChoose (k : Fin 4) (s : State) : Host.Outcome State Fault Refusal :=
  unlessHeld s fun s =>
    if (s.line k).settings.personality = .polled ∧ s.lineFree k then s.choosePolled k else s

/-- EXCEPTION_CHOOSE: no effect unless the line is EXCEPTION and free to choose (R34, log 16). -/
def execExceptionChoose (k : Fin 4) (s : State) : Host.Outcome State Fault Refusal :=
  unlessHeld s fun s =>
    if (s.line k).settings.personality = .exception ∧ s.lineFree k then s.chooseException k else s

/-! ## The last byte of a frame (R29, R36) -/

/-- The awaited phase begins, with the reply timer started with T1 (R17). -/
def State.startTimer (s : State) (k : Fin 4) (t : Transaction) : State :=
  s.setTransaction k (some { t with phase := .awaiting, timer := some (s.line k).settings.t1 })

/-- Is it a SWEEP or check SWEEP? -/
def TransactionKind.isSweep : TransactionKind → Bool
  | .order _ => false
  | _ => true

/-- SWEEP_SENT: no effect unless the line is sending a SWEEP (R29, log 16). -/
def execSweepSent (k : Fin 4) (s : State) : Host.Outcome State Fault Refusal :=
  unlessHeld s fun s =>
    match (s.line k).transaction with
    | some t => if t.kind.isSweep ∧ t.phase ≠ .awaiting ∧ s.mode = .run then s.startTimer k t else s
    | none => s

/-- ORDER_SENT: no effect unless the line is sending an ORDER (R36, log 16). -/
def execOrderSent (k : Fin 4) (s : State) : Host.Outcome State Fault Refusal :=
  unlessHeld s fun s =>
    match (s.line k).transaction with
    | some t => if !t.kind.isSweep ∧ t.phase ≠ .awaiting ∧ s.mode = .run then s.startTimer k t else s
    | none => s

/-! ## Timeouts (R25, R26, R29, R36) -/

/-- The point map under silence: STATUS conditions UNKNOWN, COUNT baselines absent, PENDING entries kept (R58). -/
def Point.silenced : Point → Point
  | .status a _ => .status a .unknown
  | .count a _ => .count a none
  | .pending c n => .pending c n

/-- Silence actions 1 and 2: the outstation's points silenced, and the gap flag set of every LOOP its COUNT points name
(R26, R58). -/
def State.silencePoints (s : State) (o : Nat) : State :=
  (s.setAssets (s.assets.mapAll fun a x =>
      if s.points.any fun e => pointOutstation e.1 = o ∧ e.2.countAsset = some a then x.withGap else x)).setPoints
    (s.points.mapAll fun key p => if pointOutstation key = o then p.silenced else p)

/-- The link asset of an outstation, if any, receives one sample (R25, R26). -/
def State.sampleLink (s : State) (x : Outstation) : State :=
  match x.config.link with
  | some a => s.sample a
  | none => s

/-- The load of a silent revisit countdown: Rv on a POLLED line, G on an EXCEPTION line (R25). -/
def LineSettings.revisit (l : LineSettings) : Nat :=
  match l.personality with
  | .exception => l.g
  | _ => l.rv

/-- A failed SWEEP makes an outstation silent: its record, the LINK notice, the silence actions (R25, R26). -/
def State.becomeSilent (s : State) (k : Fin 4) (o : Nat) (x : Outstation) : State :=
  let y : Outstation :=
    { x with comms := .silent, retry := 0, fullDue := true, countdown := (s.line k).settings.revisit,
             integrityDue := false }
  ((((s.setOutstations (s.outstations.put o y)).notify (.link o false)).silencePoints o).sampleLink y)

/-- A SILENT outstation fails a further SWEEP: the countdown reloaded with G on an EXCEPTION line, the link asset sampled
(R25, R33). -/
def State.staySilent (s : State) (k : Fin 4) (o : Nat) (x : Outstation) : State :=
  let y : Outstation :=
    { x with
      retry := 0,
      countdown := if (s.line k).settings.personality = .exception then (s.line k).settings.g else x.countdown }
  (s.setOutstations (s.outstations.put o y)).sampleLink y

/-- A SWEEP transaction fails (R25). -/
def State.failTransaction (s : State) (k : Fin 4) (o : Nat) : State :=
  let t := s.setTransaction k none
  match t.outstation? o with
  | none => t
  | some x => if x.comms = .silent then t.staySilent k o x else t.becomeSilent k o x

/-- One timeout counted (R29, R36). -/
def LineCounters.timeout (c : LineCounters) : LineCounters := { c with timeouts := bump c.timeouts }

/-- The SWEEP is sent again with the same FULL flag and r rises by 1 (R29). -/
def State.resendSweep (s : State) (k : Fin 4) (t : Transaction) : State :=
  (s.setTransaction k (some { t with phase := .resending, timer := none })).adjustOutstation t.outstation fun x =>
    { x with retry := x.retry + 1 }

/-- The retry count of an outstation. -/
def State.retryOf (s : State) (o : Nat) : Nat := ((s.outstation? o).map fun x => x.retry).getD 0

/-- SWEEP_TIMEOUT: no effect unless the reply timer of a SWEEP runs (R29, log 16). -/
def execSweepTimeout (k : Fin 4) (s : State) : Host.Outcome State Fault Refusal :=
  unlessHeld s fun s =>
    match s.awaitedOn k with
    | some t =>
      if t.kind.isSweep ∧ t.phase = .awaiting then
        if s.retryOf t.outstation < (s.line k).settings.n2 then (s.countOn k .timeout).resendSweep k t
        else ((s.countOn k .timeout).failTransaction k t.outstation).settleBeacons
      else s
    | none => s

/-- ORDER_TIMEOUT: no effect unless the reply timer of an ORDER runs (R36, log 16). -/
def execOrderTimeout (k : Fin 4) (s : State) : Host.Outcome State Fault Refusal :=
  unlessHeld s fun s =>
    match s.awaitedOn k with
    | some t =>
      match t.kind, t.phase with
      | .order e, .awaiting => (((s.countOn k .timeout).setTransaction k none).reply ⟨e.addr, e.tag⟩ .noAnswer [])
      | _, _ => s
    | none => s

/-! ## Second ticks (R33) -/

/-- An outstation of an EXCEPTION line at a second tick of RUN: the countdown of a SILENT one falls by 1 if it is above 0;
any other keeps the integrity test under the line's G (R33; log 12). -/
def Outstation.secondTick (x : Outstation) (g now : Nat) : Outstation :=
  if x.comms = .silent then { x with countdown := x.countdown - 1, integrityDue := false }
  else { x with integrityDue := x.quietFor g now }

/-- The line unit's work at a second tick: in RUN, on an EXCEPTION line (R33, R172). -/
def State.lineSecond (s : State) (k : Fin 4) : State :=
  if s.mode = .run ∧ (s.line k).settings.personality = .exception then
    s.setOutstations (s.outstations.mapAll fun o x =>
      if lineOf o = k.val then x.secondTick (s.line k).settings.g s.runningSecond else x)
  else s

/-! ## DOWNLINK and RESYNC (R35) -/

/-- The line unit of an outstation index 0..127. -/
def unitOf (o : Nat) : Fin 4 := ⟨o / 32 % 4, Nat.mod_lt _ (by decide)⟩

/-- DOWNLINK: a refusal code, or the state with the entry at the tail of its line's queue and the reply deferred (R35). -/
def downlink (dest : ReplyTo) (fs : List Byte) (s : State) : Except ReplyCode State :=
  if s.mode = .entering then .error .busy
  else match keyByte fs 0 127 with
    | .error code => .error code
    | .ok o =>
      let payload := fs.drop 1
      if payload.length < 1 ∨ 48 < payload.length then .error .badEntry
      else if (s.outstation? o).isNone then .error .badEntry
      else if (s.line (unitOf o)).settings.personality = .off then .error .badEntry
      else if s.mode ≠ .run then .error .badMode
      else if Config.downlinkCapacity ≤ (s.line (unitOf o)).queue.length then .error .full
      else
        .ok (s.adjustLine (unitOf o) fun l =>
          { l with queue := l.queue ++ [{ outstation := o, payload := payload, tag := dest.tag, addr := dest.addr }] })

def execDownlink (addr : Byte) (req : Request) (s : State) : Host.Outcome State Fault Refusal :=
  directive addr req.tag s fun dest s =>
    match downlink dest req.fields s with
    | .error code => s.reply dest code []
    | .ok t => t

/-- RESYNC (R35). -/
def resync (fs : List Byte) (s : State) : Except ReplyCode State :=
  if s.mode = .entering then .error .busy
  else match keyByte fs 0 127 with
    | .error code => .error code
    | .ok o =>
      if (s.outstation? o).isNone then .error .badEntry
      else .ok (s.adjustOutstation o fun x => { x with fullDue := true })

def execResync (addr : Byte) (req : Request) (s : State) : Host.Outcome State Fault Refusal :=
  directive addr req.tag s fun dest s => s.answer dest (resync req.fields s)

/-! ## Mode changes (R40, R41) -/

/-- The line drops its transaction and its queue (R41, R42). -/
def Line.emptied (l : Line) : Line := { l with transaction := none, queue := [] }

/-- The bytes of a frame still being received are discarded (R37). -/
def Line.deafened (l : Line) : Line := { l with received := [] }

/-- The line at the start of a cycle with no previous transaction (R40, R42). -/
def Line.atStart (l : Line) : Line := { l with pollPosition := none, previous := none }

/-- The deferred REPLY ABORTED of a downlink entry (R41). -/
def State.replyAborted (s : State) (e : Downlink) : State := s.reply ⟨e.addr, e.tag⟩ .aborted []

/-- The transaction a line has in hand is dropped: r becomes 0, an ORDER is answered ABORTED (R41). -/
def State.dropTransaction (s : State) (t : Transaction) : State :=
  let u := s.adjustOutstation t.outstation fun x => { x with retry := 0 }
  match t.kind with
  | .order e => u.replyAborted e
  | _ => u

/-- A line becomes HALTED as the part enters MAINTAIN: its work is dropped (R41), and a frame still being received is
discarded uncounted (R37). -/
def State.haltLine (s : State) (k : Fin 4) : State :=
  let l := s.line k
  if l.settings.personality = .off then s
  else
    let t := match l.transaction with
      | some x => s.dropTransaction x
      | none => s
    (l.queue.foldl State.replyAborted t).adjustLine k fun l => l.emptied.deafened

/-- Every line of personality POLLED or EXCEPTION becomes READY as the part enters RUN (R40). -/
def State.readyLines (s : State) : State :=
  s.setLines (s.lines.map fun l => if l.settings.personality = .off then l else l.atStart)

end Sys2Proof.Machine
end

