-- ==== Sys2Proof/Machine/Answers.lean ====
section
/-! DEFINITION. Frames arriving on a field line: the receiver's tests (R37, R38), the taken answer (R24, R32, R36), the
point map and the count windows (R47 to R51, R83 to R85), the relay copy (R59 to R61) and the sample trigger (R62, R63). -/

namespace Sys2Proof.Machine

/-! ## Count values (R83 to R85) -/

/-- The rise from b to v modulo 65536 (R83). -/
def countRise (b v : Nat) : Nat := if b ≤ v then v - b else v + 65536 - b

/-- A window under a count value measured against a baseline: counted, or a counter restart (R83). -/
def Window.counted (w : Window) (limit : Nat) (baseline : Option Nat) (v : Nat) : Window :=
  match baseline with
  | none => w
  | some b =>
    if countRise b v ≤ limit then { w with count := min 65535 (w.count + countRise b v) } else { w with gap := true }

/-- The delta limit Dmax of the loop profile an asset names. -/
def State.deltaLimit (s : State) (x : Asset) : Nat :=
  match x.config.loopProfile with
  | some p => (s.loopProfile p).limit
  | none => 0

/-- The loop supervisor takes a count value for an asset (R83). -/
def State.takeCount (s : State) (a : Nat) (baseline : Option Nat) (v : Nat) : State :=
  s.adjustAsset a fun x => { x with window := x.window.map fun w => w.counted (s.deltaLimit x) baseline v }

/-! ## Point records (R48 to R51) -/

/-- A record whose key finds no entry: a placeholder with its UNRESOLVED notice, or the record dropped and counted
(R51). -/
def State.createPlaceholder (s : State) (o : Nat) (r : PointRecord) : State :=
  if s.points.length < Config.pointCapacity ∧ s.pendingPoints < Config.pendingCapacity then
    (s.setPoints (s.points.put (pointKey o r.code) (.pending r.condition r.countValue))).notify
      (.unresolved o r.code r.condition)
  else s.setDrops (bump s.drops)

/-- One point record of an outstation's answer is applied (R48). -/
def State.applyRecord (s : State) (o : Nat) (r : PointRecord) : State :=
  let key := pointKey o r.code
  match s.points.get? key with
  | some (.status a _) => s.setPoints (s.points.put key (.status a r.condition))
  | some (.count a b) =>
    match r.countValue with
    | some v => (s.takeCount a b v).setPoints (s.points.put key (.count a (some v)))
    | none => s
  | some (.pending _ _) => s.setPoints (s.points.put key (.pending r.condition r.countValue))
  | none => s.createPlaceholder o r

/-! ## The relay copy (R59 to R61) -/

/-- The policy in force: ALL is narrowed to CHANGES in storm (R59). -/
def State.policyInForce (s : State) (policy : RelayPolicy) : RelayPolicy :=
  match policy with
  | .all => if s.storm.on then .changes else .all
  | p => p

/-- Does a record differ from what its key held before the frame (R60)? COUNT points are not relayed under CHANGES. -/
def recordChanged (before : Table Point) (o : Nat) (r : PointRecord) : Bool :=
  match before.get? (pointKey o r.code) with
  | some (.status _ c) => r.condition ≠ c
  | some (.count _ _) => false
  | some (.pending c _) => r.condition ≠ c
  | none => r.condition ≠ .unknown

/-- The records selected for the relay copy, in frame order (R60). -/
def relaySelection (policy : RelayPolicy) (before : Table Point) (o : Nat) (rs : List PointRecord) : List PointRecord :=
  match policy with
  | .all => rs
  | .changes => rs.filter (recordChanged before o)
  | .none => []

/-- The RELAY notice, when the selection is not empty (R61). -/
def State.relayRecords (s : State) (o : Nat) (selection : List PointRecord) : State :=
  if selection.isEmpty then s else s.notify (.relay o selection)

/-! ## The sample trigger (R62) -/

/-- The sample set of an answer in ascending asset number: the present assets named by the outstation's RESOLVED STATUS
entries, and its link asset (R62). -/
def State.sampleSet (s : State) (o : Nat) (link : Option Nat) : List Nat :=
  s.assets.keysWhere fun a _ =>
    link = some a ∨ s.points.any fun e => pointOutstation e.1 = o ∧ e.2.statusAsset = some a

/-! ## A taken answer (R24, R47) -/

/-- The intake unit's event: the records applied, the relay copy, the samples (R47). -/
def State.takeIntoPoints (s : State) (o : Nat) (x : Outstation) (rs : List PointRecord) : State :=
  let applied := rs.foldl (fun t r => t.applyRecord o r) s
  let relayed := applied.relayRecords o (relaySelection (s.policyInForce x.config.policy) s.points o rs)
  relayed.sampleAll (relayed.sampleSet o x.config.link)

/-- The outstation record under a taken answer (R24). The answer renews the last-heard second, so the integrity test no longer
holds (R33). -/
def Outstation.heard (x : Outstation) (now : Nat) (endsFull : Bool) : Outstation :=
  { x with comms := .online, retry := 0, lastHeard := some now, fullDue := if endsFull then false else x.fullDue,
           integrityDue := false }

/-- Was the transaction a SWEEP or check SWEEP that carried FULL? -/
def TransactionKind.carriesFull : TransactionKind → Bool
  | .sweep full => full
  | .check full => full
  | .order _ => false

/-- One good frame counted (R38). -/
def LineCounters.goodFrame (c : LineCounters) : LineCounters := { c with good := bump c.good }

/-- The line unit's part of a taken answer: the good frame counted, the outstation record updated, its LINK notice, and
the awaited transaction ended (R24, R29, R32, R36). An answer taken while its SWEEP is being sent again ends the transaction,
and the line is READY; the rules do not say what becomes of the frame on the line, and the model breaks it off, so that the
line may choose at once (log 28). -/
def State.lineTakes (s : State) (k : Fin 4) (o : Nat) (x : Outstation) (ended : Option Transaction) : State :=
  let endsFull := (ended.map fun t => t.kind.carriesFull).getD false
  let t := (s.countOn k .goodFrame).setOutstations (s.outstations.put o (x.heard s.runningSecond endsFull))
  let u := if x.comms = .online then t else t.notify (.link o true)
  if ended.isSome then u.setTransaction k none else u

/-- The deferred REPLY DONE of an ORDER that the answer ends (R36). -/
def State.replyDelivered (s : State) (ended : Option Transaction) : State :=
  match ended with
  | some t =>
    match t.kind with
    | .order e => s.reply ⟨e.addr, e.tag⟩ .done []
    | _ => s
  | none => s

/-- The awaited transaction an answer of an outstation ends, if any (R29, R32, R36). -/
def State.endedBy (s : State) (k : Fin 4) (o : Nat) : Option Transaction :=
  match s.awaitedOn k with
  | some t => if t.outstation = o then some t else none
  | none => none

/-- A taken answer: the line unit, then the intake unit, then the reply of an answered ORDER (R24, R36, R47; log 11). -/
def State.takeAnswer (s : State) (k : Fin 4) (o : Nat) (x : Outstation) (rs : List PointRecord) : State :=
  let ended := s.endedBy k o
  ((((s.lineTakes k o x ended).takeIntoPoints o x rs).replyDelivered ended)).settleBeacons

/-! ## The receiver (R37, R38) -/

/-- The kind byte of a TALLY and of a QUIET (R195). -/
def tallyKind : Byte := 0x11
def quietKind : Byte := 0x12

/-- The counter a frame raises when it is discarded. -/
inductive FieldDiscard where
  | checkError
  | overlong
  | unknownStation
  | stray
  deriving DecidableEq, Repr

/-- One discarded frame counted (R38, R39). -/
def LineCounters.discard (c : LineCounters) (why : FieldDiscard) : LineCounters :=
  match why with
  | .checkError => { c with checkErrors := bump c.checkErrors }
  | .overlong => { c with overlong := bump c.overlong }
  | .unknownStation => { c with unknownStation := bump c.unknownStation }
  | .stray => { c with strays := bump c.strays }

/-- Tests 1 to 3 of R38 on a complete frame: the counter of the first that fails, or the frame's point records. -/
def readAnswer (kind : Byte) (payload : List Byte) : Except FieldDiscard (List PointRecord) :=
  if kind = quietKind then .ok []
  else if kind ≠ tallyKind then .error .checkError
  else match payload with
    | [] => .error .checkError
    | n :: rest =>
      if Config.tallyCapacity < n.toNat then .error .overlong
      else match readRecords n.toNat rest with
        | none => .error .checkError
        | some rs => .ok rs

/-- Tests 4 and 5 of R38: the sender must be a present outstation of the line, and on a POLLED line the one awaited. -/
def State.findSender (s : State) (k : Fin 4) (addr : Byte) : Except FieldDiscard (Nat × Outstation) :=
  match s.stationAt k addr.toNat with
  | none => .error .unknownStation
  | some (o, x) =>
    if (s.line k).settings.personality = .polled ∧ (s.endedBy k o).isNone then .error .stray else .ok (o, x)

/-- A complete frame whose check has passed is tested, and taken or discarded and counted (R38). -/
def State.completeFrame (s : State) (k : Fin 4) (addr kind : Byte) (payload : List Byte) : State :=
  match readAnswer kind payload with
  | .error why => s.countOn k fun c => c.discard why
  | .ok rs =>
    match s.findSender k addr with
    | .error why => s.countOn k fun c => c.discard why
    | .ok (o, x) => s.takeAnswer k o x rs

/-- Is the receiver of the line running: is it neither OFF nor HALTED (R37)? -/
def State.receiving (s : State) (k : Fin 4) : Bool := s.lineState k ≠ .off ∧ s.lineState k ≠ .halted

/-- The receiver holds the given bytes of a frame still being received (R37). -/
def State.setReceived (s : State) (k : Fin 4) (bytes : List Byte) : State :=
  s.adjustLine k fun l => { l with received := bytes }

/-- A whole frame arrives whose check passes: discarded uncounted while the line is OFF or HALTED, overlong beyond Fmax,
else tested (R37, R38). The bytes held of it are spent. -/
def State.fieldFrame (s : State) (k : Fin 4) (addr kind : Byte) (payload : List Byte) : State :=
  if !s.receiving k then s
  else
    let t := s.setReceived k []
    if (s.line k).settings.fmax < payload.length + 6 then t.countOn k fun c => c.discard .overlong
    else t.completeFrame k addr kind payload

/-- The bytes after the first start byte. -/
def hunt : List Byte → Option (List Byte)
  | [] => none
  | b :: rest => if b = startByte then some rest else hunt rest

/-- What the receiver finds at a start byte. -/
inductive Scan where
  | incomplete
  | lengthOver (n : Nat)
  | checkFailed
  | complete (addr kind : Byte) (payload rest : List Byte)
  deriving DecidableEq, Repr

/-- Read a frame after its start byte: address, kind and length, then the length against its limit, then payload and
check (R37, R181, R194). -/
def scanFrame (limit : Nat) (afterStart : List Byte) : Scan :=
  match afterStart with
  | addr :: kind :: len :: rest =>
    if limit < len.toNat then .lengthOver len.toNat
    else if rest.length < len.toNat + 2 then .incomplete
    else
      let payload := rest.take len.toNat
      if beWord (crc16 (addr :: kind :: len :: payload)) = (rest.drop len.toNat).take 2 then
        .complete addr kind payload (rest.drop (len.toNat + 2))
      else .checkFailed
  | _ => .incomplete

/-- Bytes arrive on a line, up to one frame of them: discarded uncounted while the line is OFF or HALTED; else the frame that
they and the held bytes begin is discarded and counted, or complete, or still being received and held (R37). Bytes before a
start byte are passed over. Where the hunt resumes behind a frame is State.fieldNext's. -/
def State.fieldBytes (s : State) (k : Fin 4) (bytes : List Byte) : State :=
  if !s.receiving k then s
  else match hunt ((s.line k).received ++ bytes) with
    | none => s.setReceived k []
    | some rest =>
      match scanFrame ((s.line k).settings.fmax - 6) rest with
      | .incomplete => s.setReceived k (startByte :: rest)
      | .lengthOver _ => (s.setReceived k []).countOn k fun c => c.discard .overlong
      | .checkFailed => (s.setReceived k []).countOn k fun c => c.discard .checkError
      | .complete addr kind payload _ => (s.setReceived k []).completeFrame k addr kind payload

/-- TALLY (R47). -/
def execTally (k : Fin 4) (addr : Byte) (payload : List Byte) (s : State) : Host.Outcome State Fault Refusal :=
  unlessHeld s fun s => s.fieldFrame k addr tallyKind payload

/-- QUIET (R24). -/
def execQuiet (k : Fin 4) (addr : Byte) (payload : List Byte) (s : State) : Host.Outcome State Fault Refusal :=
  unlessHeld s fun s => s.fieldFrame k addr quietKind payload

/-- FIELD_FRAME_DISCARD (R37, R38): the receiver judges the bytes that arrive (log 20). -/
def execFieldFrameDiscard (k : Fin 4) (bytes : List Byte) (s : State) : Host.Outcome State Fault Refusal :=
  unlessHeld s fun s => s.fieldBytes k bytes

/-- STRAY (R30): the receiver judges the frame. -/
def execStray (k : Fin 4) (addr kind : Byte) (payload : List Byte) (s : State) : Host.Outcome State Fault Refusal :=
  unlessHeld s fun s => s.fieldFrame k addr kind payload

end Sys2Proof.Machine
end

