-- ==== Sys2Proof/Machine/Loads.lean ====
section
/-! DEFINITION. The LOAD directive of each of the nine tables. Each load function takes the bytes after the table id and
answers the reply code of its first failing check, or the state after the LOAD; BUSY has been tested by then (R186). -/

namespace Sys2Proof.Machine

/-! ## PART (R180) -/

def partLoad (fs : List Byte) (s : State) : Except ReplyCode State :=
  match keyByte fs 0 0 with
  | .error code => .error code
  | .ok _ =>
    if fs.length < 3 then .error .badEntry
    else if byteAt fs 1 < 1 ∨ 253 < byteAt fs 1 ∨ (byteAt fs 2 ≠ 0xFF ∧ (byteAt fs 2 < 1 ∨ 253 < byteAt fs 2)) then
      .error .badEntry
    else if byteAt fs 2 = byteAt fs 1 then .error .conflict
    else if s.mode ≠ .maintain then .error .badMode
    else
      .ok (s.setTrunk { s.trunk with
        node := fs.getD 1 0, alternate := if byteAt fs 2 = 0xFF then none else some (fs.getD 2 0) })

def execPartLoad (addr : Byte) (req : CodedRequest) (s : State) : Host.Outcome State Fault Refusal :=
  tableEdit addr req s partLoad

/-! ## LINE (R18) -/

/-- The runtime fields of a new outstation (R22). -/
def Outstation.renewed (x : Outstation) : Outstation :=
  { x with comms := .new, retry := 0, lastHeard := none, countdown := 0, fullDue := true, integrityDue := false }

/-- What a change of a line's settings does to one of its outstations: a changed personality renews it, a lowered Rv of a
POLLED line or G of an EXCEPTION line bounds its countdown (R18). -/
def Outstation.underSettings (old new : LineSettings) (x : Outstation) : Outstation :=
  if old.personality ≠ new.personality then x.renewed
  else match new.personality with
    | .off => x
    | .polled => if new.rv < old.rv then { x with countdown := min x.countdown new.rv } else x
    | .exception => if new.g < old.g then { x with countdown := min x.countdown new.g } else x

/-- Store the settings of a line, with the effects on its outstations (R18). -/
def State.storeLineSettings (s : State) (k : Fin 4) (new : LineSettings) : State :=
  ((s.adjustLine k fun l => { l with settings := new }).setOutstations
    (s.outstations.mapAll fun o x =>
      if lineOf o = k.val then x.underSettings (s.line k).settings new else x)).settleBeacons

def lineLoad (fs : List Byte) (s : State) : Except ReplyCode State :=
  match finKey 4 1 fs with
  | .error code => .error code
  | .ok k =>
    if fs.length < 8 then .error .badEntry
    else match readLineSettings fs with
      | none => .error .badEntry
      | some new => if s.mode ≠ .maintain then .error .badMode else .ok (s.storeLineSettings k new)

def execLineLoad (addr : Byte) (req : CodedRequest) (s : State) : Host.Outcome State Fault Refusal :=
  tableEdit addr req s lineLoad

/-! ## OUTSTATION (R21, R22) -/

/-- Does another present outstation of the same line hold the station address (R21, step 7)? -/
def State.addressTaken (s : State) (o address : Nat) : Bool :=
  s.outstations.any fun e => e.1 ≠ o ∧ lineOf e.1 = lineOf o ∧ e.2.config.address = address

/-- Is the link asset, if given, a present CABINET (R21, step 5)? -/
def State.linkValid (s : State) (link : Option Nat) : Bool :=
  match link with
  | none => true
  | some a =>
    match s.asset? a with
    | some x => x.config.kind = .cabinet
    | none => false

/-- An outstation as a LOAD leaves it: new runtime fields for a new outstation or a changed address (R22). -/
def outstationAfterLoad (old : Option Outstation) (config : OutstationConfig) : Outstation :=
  let fresh : Outstation :=
    { config := config, comms := .new, retry := 0, lastHeard := none, countdown := 0, fullDue := true,
      integrityDue := false }
  match old with
  | none => fresh
  | some x => if x.config.address = config.address then { x with config := config } else fresh

def outstationLoad (fs : List Byte) (s : State) : Except ReplyCode State :=
  match keyByte fs 0 127 with
  | .error code => .error code
  | .ok o =>
    if fs.length < 5 then .error .badEntry
    else match readOutstationConfig fs with
      | none => .error .badEntry
      | some config =>
        if !s.linkValid config.link then .error .badEntry
        else if s.mode ≠ .maintain then .error .badMode
        else if s.addressTaken o config.address then .error .conflict
        else .ok (s.setOutstations (s.outstations.put o (outstationAfterLoad (s.outstation? o) config))).settleBeacons

def execOutstationLoad (addr : Byte) (req : CodedRequest) (s : State) : Host.Outcome State Fault Refusal :=
  tableEdit addr req s outstationLoad

/-! ## ASSET (R3 to R11) -/

/-- Does the new parent make a cycle or pass the depth limit (R5)? A parent left unchanged is not tested again. -/
def State.parentConflict (s : State) (a : Nat) (old : Option Asset) (parent : Option Nat) : Bool :=
  match parent with
  | none => false
  | some p =>
    if (old.bind fun x => x.config.parent) = some p then false
    else p = a ∨ (s.descendantsOf a).contains p ∨ Config.maxDepth < s.depthOf p + s.heightOf a

/-- Is the asset the link asset of a present outstation (R8, R12)? -/
def State.isLinkAsset (s : State) (a : Nat) : Bool := s.outstations.any fun e => e.2.config.link = some a

/-- Does a kind change leave a reference to the asset invalid (R8)? -/
def State.kindConflict (s : State) (a : Nat) (old : Option Asset) (kind : Kind) : Bool :=
  match old with
  | none => false
  | some x =>
    x.config.kind ≠ kind ∧
      ((kind ≠ .cabinet ∧ s.isLinkAsset a) ∨ (kind ≠ .loop ∧ s.points.any fun e => e.2.countAsset = some a))

/-- The window fields after a LOAD: discarded, created, or kept with the gap flag set when the loop profile changes
(R7, R10). -/
def windowAfterLoad (old : Asset) (new : AssetConfig) : Option Window :=
  if new.kind ≠ .loop then none
  else if old.config.kind ≠ .loop then some .fresh
  else if old.config.loopProfile ≠ new.loopProfile then old.window.map fun w => { w with gap := true }
  else old.window

/-- The absorbed-by of an asset created in RUN, taken from its parent (R11). -/
def State.inheritedAbsorber (s : State) (parent : Option Nat) : Option Nat :=
  match parent with
  | none => none
  | some p =>
    match s.absorbedByOf p with
    | some z => some z
    | none => if (s.faultIdOf p).isSome then some p else none

/-- A new asset (R7, R11). -/
def State.newAsset (s : State) (config : AssetConfig) : Asset :=
  { config := config, integrator := 0, health := .healthy,
    absorbedBy := if s.mode = .run then s.inheritedAbsorber config.parent else none, faultId := none, waiting := false,
    window := if config.kind = .loop then some .fresh else none }

/-- A present asset with its configuration replaced (R7, R10). In RUN, I is clamped by a change of profile alone. -/
def State.reconfigured (s : State) (x : Asset) (config : AssetConfig) : Asset :=
  { x with
    config := config,
    integrator :=
      if s.mode = .maintain ∨ x.config.faultProfile ≠ config.faultProfile then
        min x.integrator (s.faultProfile config.faultProfile).ceiling
      else x.integrator,
    window := windowAfterLoad x config }

/-- Apply an ASSET LOAD: a record held by the asset has its urgency recomputed when the weight or the fault profile
changes (R10, R145). -/
def State.storeAsset (s : State) (a : Nat) (config : AssetConfig) : State :=
  match s.asset? a with
  | none => s.putAsset a (s.newAsset config)
  | some x =>
    let t := s.putAsset a (s.reconfigured x config)
    if x.config.weight ≠ config.weight ∨ x.config.faultProfile ≠ config.faultProfile then (t.refreshOn a).settleBeacons
    else t

/-- Does RUN refuse the edit: a change of kind or parent of a present asset (R9)? -/
def editNeedsMaintain (old : Option Asset) (config : AssetConfig) : Bool :=
  match old with
  | none => false
  | some x => x.config.kind ≠ config.kind ∨ x.config.parent ≠ config.parent

/-- Is the parent, if given, a present asset (R4, step 5)? -/
def State.parentPresent (s : State) (parent : Option Nat) : Bool :=
  match parent with
  | none => true
  | some p => (s.asset? p).isSome

def assetLoad (fs : List Byte) (s : State) : Except ReplyCode State :=
  match assetKey fs with
  | .error code => .error code
  | .ok a =>
    if fs.length < 8 then .error .badEntry
    else match readAssetConfig fs with
      | none => .error .badEntry
      | some config =>
        if !s.parentPresent config.parent then .error .badEntry
        else if s.mode = .run ∧ editNeedsMaintain (s.asset? a) config then .error .badMode
        else if s.parentConflict a (s.asset? a) config.parent then .error .conflict
        else if s.kindConflict a (s.asset? a) config.kind then .error .conflict
        else .ok (s.storeAsset a config)

def execAssetLoad (addr : Byte) (req : CodedRequest) (s : State) : Host.Outcome State Fault Refusal :=
  tableEdit addr req s assetLoad

/-! ## POINT (R53 to R56) -/

/-- The entry a POINT LOAD leaves: a resolved placeholder takes over its held value, any other entry begins UNKNOWN or
without a baseline (R54, R55, R56). -/
def pointAfterLoad (old : Option Point) (a : Nat) (isCount : Bool) : Point :=
  match old, isCount with
  | some (.pending _ n), true => .count a n
  | some (.pending c _), false => .status a c
  | _, true => .count a none
  | _, false => .status a .unknown

/-- Is the asset present, and a LOOP for role COUNT (R53, steps 6 and 7)? -/
def State.pointAssetValid (s : State) (a : Nat) (isCount : Bool) : Bool :=
  match s.asset? a with
  | none => false
  | some x => !isCount || x.config.kind = .loop

def pointLoad (fs : List Byte) (s : State) : Except ReplyCode State :=
  match pointKeyOf fs with
  | .error code => .error code
  | .ok key =>
    if fs.length < 6 then .error .badEntry
    else if 1 < byteAt fs 5 ∨ Config.assetCapacity ≤ wordAt fs 3 then .error .badEntry
    else if (s.outstation? (byteAt fs 0)).isNone then .error .badEntry
    else if !s.pointAssetValid (wordAt fs 3) (byteAt fs 5 = 1) then .error .badEntry
    else if !s.points.has key ∧ Config.pointCapacity ≤ s.points.length then .error .full
    else .ok (s.setPoints (s.points.put key (pointAfterLoad (s.points.get? key) (wordAt fs 3) (byteAt fs 5 = 1))))

def execPointLoad (addr : Byte) (req : CodedRequest) (s : State) : Host.Outcome State Fault Refusal :=
  tableEdit addr req s pointLoad

/-! ## FAULT-PROFILE (R66, R67) -/

/-- Store a fault profile: I of every asset naming it is clamped, and the urgency of every record whose asset names it
recomputed (R67). -/
def State.storeFaultProfile (s : State) (p : Fin 16) (new : FaultProfile) : State :=
  let t := (s.setFaultProfiles (s.faultProfiles.set p.val new p.isLt)).setAssets
    (s.assets.mapAll fun _ x =>
      if x.config.faultProfile = p then { x with integrator := min x.integrator new.ceiling } else x)
  (t.setRecords (t.records.mapAll fun _ r =>
    match t.asset? r.asset with
    | some x => if x.config.faultProfile = p then t.refreshed r else r
    | none => r)).settleBeacons

def faultProfileLoad (fs : List Byte) (s : State) : Except ReplyCode State :=
  match finKey 16 0 fs with
  | .error code => .error code
  | .ok p =>
    if fs.length < 13 then .error .badEntry
    else match readFaultProfile fs with
      | none => .error .badEntry
      | some new => if s.mode ≠ .maintain then .error .badMode else .ok (s.storeFaultProfile p new)

def execFaultProfileLoad (addr : Byte) (req : CodedRequest) (s : State) : Host.Outcome State Fault Refusal :=
  tableEdit addr req s faultProfileLoad

/-! ## LOOP-PROFILE (R80, R81) -/

/-- Store a loop profile: the gap flag of every LOOP naming it is set (R81). -/
def State.storeLoopProfile (s : State) (p : Fin 8) (new : LoopProfile) : State :=
  (s.setLoopProfiles (s.loopProfiles.set p.val new p.isLt)).setAssets
    (s.assets.mapAll fun _ x => if x.config.loopProfile = some p then x.withGap else x)

def loopProfileLoad (fs : List Byte) (s : State) : Except ReplyCode State :=
  match finKey 8 0 fs with
  | .error code => .error code
  | .ok p =>
    if fs.length < 28 then .error .badEntry
    else match readLoopProfile fs with
      | none => .error .badEntry
      | some new => if s.mode ≠ .maintain then .error .badMode else .ok (s.storeLoopProfile p new)

def execLoopProfileLoad (addr : Byte) (req : CodedRequest) (s : State) : Host.Outcome State Fault Refusal :=
  tableEdit addr req s loopProfileLoad

/-! ## STORM (R159) -/

/-- Replace the three settings, leaving storm state, calm count and opens-this-minute (R159). -/
def State.storeStormSettings (s : State) (se sx q : Nat) : State :=
  s.setStorm { s.storm with entry := se, exit := sx, calmPeriod := q }

def stormLoad (fs : List Byte) (s : State) : Except ReplyCode State :=
  match keyByte fs 0 0 with
  | .error code => .error code
  | .ok _ =>
    if fs.length < 4 then .error .badEntry
    else if byteAt fs 3 < 1 ∨ 60 < byteAt fs 3 then .error .badEntry
    else .ok (s.storeStormSettings (byteAt fs 1) (byteAt fs 2) (byteAt fs 3))

def execStormLoad (addr : Byte) (req : CodedRequest) (s : State) : Host.Outcome State Fault Refusal :=
  tableEdit addr req s stormLoad

/-! ## BEACON (R166) -/

/-- Replace a beacon's source, argument and stretch, and start it afresh under the new source (R166). -/
def State.storeBeacon (s : State) (b : Fin 4) (source : BeaconSource) (argument : Nat) (stretch : Stretch) : State :=
  s.adjustBeacon b fun x =>
    { x with source := source, argument := argument, stretch := stretch }.startAfresh (s.sourceValue source argument)

def beaconLoad (fs : List Byte) (s : State) : Except ReplyCode State :=
  match finKey 4 1 fs with
  | .error code => .error code
  | .ok b =>
    if fs.length < 5 then .error .badEntry
    else match BeaconSource.ofCode (byteAt fs 1), Stretch.ofCode (byteAt fs 4) with
      | some source, some stretch =>
        if source = .lineSilent ∧ (wordAt fs 2 < 1 ∨ 4 < wordAt fs 2) then .error .badEntry
        else .ok (s.storeBeacon b source (wordAt fs 2) stretch)
      | _, _ => .error .badEntry

def execBeaconLoad (addr : Byte) (req : CodedRequest) (s : State) : Host.Outcome State Fault Refusal :=
  tableEdit addr req s beaconLoad

end Sys2Proof.Machine
end

