-- ==== Sys2Proof/Machine/Erases.lean ====
section
/-! DEFINITION. The ERASE directive of each of the nine tables. Each takes the bytes after the table id, as in Loads. -/

namespace Sys2Proof.Machine

/-- ERASE of PART: node address 1, alternate address absent (R180). -/
def partErase (fs : List Byte) (s : State) : Except ReplyCode State :=
  match keyByte fs 0 0 with
  | .error code => .error code
  | .ok _ =>
    if s.mode ≠ .maintain then .error .badMode
    else .ok (s.setTrunk { s.trunk with node := 1, alternate := none })

def execPartErase (addr : Byte) (req : CodedRequest) (s : State) : Host.Outcome State Fault Refusal :=
  tableEdit addr req s partErase

/-- ERASE of LINE: a LOAD of the power-on values (R18). -/
def lineErase (fs : List Byte) (s : State) : Except ReplyCode State :=
  match finKey 4 1 fs with
  | .error code => .error code
  | .ok k => if s.mode ≠ .maintain then .error .badMode else .ok (s.storeLineSettings k .powerOn)

def execLineErase (addr : Byte) (req : CodedRequest) (s : State) : Host.Outcome State Fault Refusal :=
  tableEdit addr req s lineErase

/-- The outstation's entries of the point map that are not PENDING, and every other outstation's entries. -/
def State.pointsWithoutPendingOf (s : State) (o : Nat) : Table Point :=
  s.points.filter fun e => !(pointOutstation e.1 = o ∧ !e.2.resolved)

/-- ERASE of OUTSTATION: its PENDING entries go with it; a RESOLVED entry keyed by it prevents it (R23). -/
def outstationErase (fs : List Byte) (s : State) : Except ReplyCode State :=
  match keyByte fs 0 127 with
  | .error code => .error code
  | .ok o =>
    if s.mode ≠ .maintain then .error .badMode
    else if (s.outstation? o).isNone then .ok s
    else if s.points.any fun e => pointOutstation e.1 = o ∧ e.2.resolved then .error .conflict
    else .ok ((s.setPoints (s.pointsWithoutPendingOf o)).setOutstations (s.outstations.del o)).settleBeacons

def execOutstationErase (addr : Byte) (req : CodedRequest) (s : State) : Host.Outcome State Fault Refusal :=
  tableEdit addr req s outstationErase

/-- Is the asset the root of a walk list entry or of the walk in flight (R12)? -/
def State.isWalkRoot (s : State) (a : Nat) : Bool :=
  s.walkList.any (fun e => e.root = a) || (match s.walk with
    | some w => decide (w.root = a)
    | none => false)

/-- Does anything prevent the ERASE of a present asset (R12)? -/
def State.eraseConflict (s : State) (a : Nat) (x : Asset) : Bool :=
  s.hasChild a
    || s.points.any (fun e => e.2.namedAsset = some a)
    || s.isLinkAsset a
    || x.faultId.isSome
    || x.waiting
    || (decide (s.mode = .run) && decide (x.health ≠ .healthy))
    || (decide (s.mode = .run) && s.isWalkRoot a)

/-- ERASE of ASSET (R12). -/
def assetErase (fs : List Byte) (s : State) : Except ReplyCode State :=
  match assetKey fs with
  | .error code => .error code
  | .ok a =>
    match s.asset? a with
    | none => .ok s
    | some x => if s.eraseConflict a x then .error .conflict else .ok (s.setAssets (s.assets.del a))

def execAssetErase (addr : Byte) (req : CodedRequest) (s : State) : Host.Outcome State Fault Refusal :=
  tableEdit addr req s assetErase

/-- ERASE of POINT (R57). -/
def pointErase (fs : List Byte) (s : State) : Except ReplyCode State :=
  match pointKeyOf fs with
  | .error code => .error code
  | .ok key => .ok (s.setPoints (s.points.del key))

def execPointErase (addr : Byte) (req : CodedRequest) (s : State) : Host.Outcome State Fault Refusal :=
  tableEdit addr req s pointErase

/-- ERASE of FAULT-PROFILE: the power-on values, with the effects of a LOAD (R66). -/
def faultProfileErase (fs : List Byte) (s : State) : Except ReplyCode State :=
  match finKey 16 0 fs with
  | .error code => .error code
  | .ok p => if s.mode ≠ .maintain then .error .badMode else .ok (s.storeFaultProfile p .powerOn)

def execFaultProfileErase (addr : Byte) (req : CodedRequest) (s : State) : Host.Outcome State Fault Refusal :=
  tableEdit addr req s faultProfileErase

/-- ERASE of LOOP-PROFILE: the power-on values, with the effects of a LOAD (R80). -/
def loopProfileErase (fs : List Byte) (s : State) : Except ReplyCode State :=
  match finKey 8 0 fs with
  | .error code => .error code
  | .ok p => if s.mode ≠ .maintain then .error .badMode else .ok (s.storeLoopProfile p .powerOn)

def execLoopProfileErase (addr : Byte) (req : CodedRequest) (s : State) : Host.Outcome State Fault Refusal :=
  tableEdit addr req s loopProfileErase

/-- ERASE of STORM: the power-on settings (R159). -/
def stormErase (fs : List Byte) (s : State) : Except ReplyCode State :=
  match keyByte fs 0 0 with
  | .error code => .error code
  | .ok _ => .ok (s.storeStormSettings Storm.powerOn.entry Storm.powerOn.exit Storm.powerOn.calmPeriod)

def execStormErase (addr : Byte) (req : CodedRequest) (s : State) : Host.Outcome State Fault Refusal :=
  tableEdit addr req s stormErase

/-- ERASE of BEACON: a LOAD of source OFF, argument 0 and stretch NONE (R166). -/
def beaconErase (fs : List Byte) (s : State) : Except ReplyCode State :=
  match finKey 4 1 fs with
  | .error code => .error code
  | .ok b => .ok (s.storeBeacon b .off 0 .unstretched)

def execBeaconErase (addr : Byte) (req : CodedRequest) (s : State) : Host.Outcome State Fault Refusal :=
  tableEdit addr req s beaconErase

end Sys2Proof.Machine
end

