-- ==== Sys2Proof/Machine/Faults.lean ====
section
/-! DEFINITION. The directives over fault records: LIST, FAULT, ACK and CLOSE (R114 to R121, R151). -/

namespace Sys2Proof.Machine

/-- The summaries a LIST asks for, a count above 8 taken as 8 (R151). -/
def State.listed (s : State) (first count : Nat) : List (Nat × FaultRecord) :=
  (s.dispatchQueue.drop (first - 1)).take (min count Config.listCapacity)

/-- LIST (R151). -/
def listFaults (fs : List Byte) (s : State) : Except ReplyCode (List Byte) :=
  if fs.length < 3 then .error .badEntry
  else if wordAt fs 0 < 1 then .error .badIndex
  else if byteAt fs 2 < 1 then .error .badEntry
  else .ok (listBytes (s.listed (wordAt fs 0) (byteAt fs 2)))

def execList (addr : Byte) (req : Request) (s : State) : Host.Outcome State Fault Refusal :=
  directive addr req.tag s fun dest s => s.report dest (listFaults req.fields s)

/-- The report on a record under an ID, NO-SUCH when there is none (R121). -/
def State.faultReport (s : State) (id : Nat) : Except ReplyCode (List Byte) :=
  match s.records.get? id with
  | some r => .ok (s.faultBytes id r)
  | none => .error .noSuch

/-- FAULT with selector 0 (R121). -/
def faultById (fs : List Byte) (s : State) : Except ReplyCode (List Byte) :=
  if fs.length < 2 then .error .badEntry else s.faultReport (wordAt fs 0)

def execFaultById (addr : Byte) (req : CodedRequest) (s : State) : Host.Outcome State Fault Refusal :=
  tableRead addr req s faultById

/-- FAULT with selector 1: the record the asset holds, NO-SUCH when it holds none (R121). -/
def faultByAsset (fs : List Byte) (s : State) : Except ReplyCode (List Byte) :=
  match assetKey fs with
  | .error code => .error code
  | .ok a =>
    match s.faultIdOf a with
    | some id => s.faultReport id
    | none => .error .noSuch

def execFaultByAsset (addr : Byte) (req : CodedRequest) (s : State) : Host.Outcome State Fault Refusal :=
  tableRead addr req s faultByAsset

/-- An ACK of a record: an OPEN one becomes ACKED with the console and its CHANGED notice at once; an ACKED one stays as
it is (R115, R116, R156). -/
def State.acknowledge (s : State) (id : Nat) (r : FaultRecord) (console : Nat) : State :=
  match r.state with
  | .opened =>
    ((s.adjustRecord id fun r => { r with state := .acked, console := some console }).sendChanged id).settleBeacons
  | .acked => s

/-- ACK (R114). -/
def ackFault (fs : List Byte) (s : State) : Except ReplyCode State :=
  if s.mode = .entering then .error .busy
  else if fs.length < 3 then .error .badEntry
  else if byteAt fs 2 < 1 ∨ 15 < byteAt fs 2 then .error .badEntry
  else match s.records.get? (wordAt fs 0) with
    | none => .error .noSuch
    | some r => .ok (s.acknowledge (wordAt fs 0) r (byteAt fs 2))

def execAck (addr : Byte) (req : Request) (s : State) : Host.Outcome State Fault Refusal :=
  directive addr req.tag s fun dest s => s.answer dest (ackFault req.fields s)

/-- A CLOSE of a record: the asset is reset without a sample, then the record is cleared manually (R118, R74). -/
def State.closeRecord (s : State) (id a : Nat) : State :=
  ((s.adjustAsset a fun x => { x with integrator := 0, health := .healthy }).clearRecord id a true).settleBeacons

/-- CLOSE (R117). -/
def closeFault (fs : List Byte) (s : State) : Except ReplyCode State :=
  if s.mode = .entering then .error .busy
  else if fs.length < 2 then .error .badEntry
  else if s.mode ≠ .run then .error .badMode
  else match s.records.get? (wordAt fs 0) with
    | none => .error .noSuch
    | some r => .ok (s.closeRecord (wordAt fs 0) r.asset)

def execClose (addr : Byte) (req : Request) (s : State) : Host.Outcome State Fault Refusal :=
  directive addr req.tag s fun dest s => s.answer dest (closeFault req.fields s)

end Sys2Proof.Machine
end

