-- ==== Sys2Proof/Machine/Reads.lean ====
section
/-! DEFINITION. The READ directive of each of the nine tables, served in every mode (R186). Each takes the bytes after
the table id and answers a refusal code or the entry's bytes; none changes the table it reads. -/

namespace Sys2Proof.Machine

/-- READ of PART (R180). -/
def partRead (fs : List Byte) (s : State) : Except ReplyCode (List Byte) :=
  match keyByte fs 0 0 with
  | .error code => .error code
  | .ok _ => .ok s.trunk.partBytes

def execPartRead (addr : Byte) (req : CodedRequest) (s : State) : Host.Outcome State Fault Refusal :=
  tableRead addr req s partRead

/-- READ of LINE (R43). -/
def lineRead (fs : List Byte) (s : State) : Except ReplyCode (List Byte) :=
  match finKey 4 1 fs with
  | .error code => .error code
  | .ok k => .ok (s.lineBytes k)

def execLineRead (addr : Byte) (req : CodedRequest) (s : State) : Host.Outcome State Fault Refusal :=
  tableRead addr req s lineRead

/-- READ of OUTSTATION (R44). -/
def outstationRead (fs : List Byte) (s : State) : Except ReplyCode (List Byte) :=
  match keyByte fs 0 127 with
  | .error code => .error code
  | .ok o => .ok (s.outstationBytes o)

def execOutstationRead (addr : Byte) (req : CodedRequest) (s : State) : Host.Outcome State Fault Refusal :=
  tableRead addr req s outstationRead

/-- READ of ASSET (R15). -/
def assetRead (fs : List Byte) (s : State) : Except ReplyCode (List Byte) :=
  match assetKey fs with
  | .error code => .error code
  | .ok a => .ok (s.assetBytes a)

def execAssetRead (addr : Byte) (req : CodedRequest) (s : State) : Host.Outcome State Fault Refusal :=
  tableRead addr req s assetRead

/-- READ of POINT (R64). -/
def pointRead (fs : List Byte) (s : State) : Except ReplyCode (List Byte) :=
  match pointKeyOf fs with
  | .error code => .error code
  | .ok key => .ok (s.pointBytes key)

def execPointRead (addr : Byte) (req : CodedRequest) (s : State) : Host.Outcome State Fault Refusal :=
  tableRead addr req s pointRead

/-- READ of FAULT-PROFILE (R68). -/
def faultProfileRead (fs : List Byte) (s : State) : Except ReplyCode (List Byte) :=
  match finKey 16 0 fs with
  | .error code => .error code
  | .ok p => .ok (s.faultProfile p).bytes

def execFaultProfileRead (addr : Byte) (req : CodedRequest) (s : State) : Host.Outcome State Fault Refusal :=
  tableRead addr req s faultProfileRead

/-- READ of LOOP-PROFILE (R81). -/
def loopProfileRead (fs : List Byte) (s : State) : Except ReplyCode (List Byte) :=
  match finKey 8 0 fs with
  | .error code => .error code
  | .ok p => .ok (s.loopProfile p).bytes

def execLoopProfileRead (addr : Byte) (req : CodedRequest) (s : State) : Host.Outcome State Fault Refusal :=
  tableRead addr req s loopProfileRead

/-- READ of STORM (R159). -/
def stormRead (fs : List Byte) (s : State) : Except ReplyCode (List Byte) :=
  match keyByte fs 0 0 with
  | .error code => .error code
  | .ok _ => .ok s.storm.bytes

def execStormRead (addr : Byte) (req : CodedRequest) (s : State) : Host.Outcome State Fault Refusal :=
  tableRead addr req s stormRead

/-- READ of BEACON (R170). -/
def beaconRead (fs : List Byte) (s : State) : Except ReplyCode (List Byte) :=
  match finKey 4 1 fs with
  | .error code => .error code
  | .ok b => .ok (s.beacon b).bytes

def execBeaconRead (addr : Byte) (req : CodedRequest) (s : State) : Host.Outcome State Fault Refusal :=
  tableRead addr req s beaconRead

end Sys2Proof.Machine
end

