-- ==== Sys2Proof/Machine/Ticks.lean ====
section
/-! DEFINITION. The time base and the minute and second work of the blocks (chapters 5, 8, 9, 10), and TIME. -/

namespace Sys2Proof.Machine

/-! ## The time base (R171) -/

/-- A minute tick: run-minute rises, and a valid day-minute with it (R171). -/
def TimeBase.minuteTick (t : TimeBase) : TimeBase :=
  { second := 0, runMinute := (t.runMinute + 1) % 4294967296, dayMinute := t.dayMinute.map fun d => (d + 1) % 1440 }

/-- A second tick: the second count rises, and from 59 it becomes 0 with a minute tick (R171). -/
def TimeBase.secondTick (t : TimeBase) : TimeBase :=
  if t.second < 59 then { t with second := t.second + 1 } else t.minuteTick

/-- The work of a second tick: the line units and the beacon outputs (R172). -/
def secondWork : List TickWork := (List.finRange 4).map .line ++ (List.finRange 4).map .beacon

/-- The work of a minute tick: the ranker, the loop supervisor and the storm monitor (R172). -/
def minuteWork : List TickWork := [.ranker, .windows, .storm]

/-- The time base takes a second tick and hands it on, and the minute tick in it from second 59 (R171, R172). -/
def State.tickSecond (s : State) : State :=
  (s.setTime s.time.secondTick).setOwed (if s.time.second < 59 then secondWork else secondWork ++ minuteWork)

/-- The time base takes a minute tick alone and hands it on (R171, R172). -/
def State.tickMinute (s : State) : State := (s.setTime s.time.minuteTick).setOwed minuteWork

/-! ## Beacon stretches (R168) -/

/-- A second tick at a beacon whose output is on: a count above 0 falls by 1, and at 0 with the source false the output
goes off (R168). -/
def Beacon.secondTick (b : Beacon) : Beacon :=
  if b.count = 0 then b
  else if b.count = 1 ∧ !b.value then { b with count := 0, output := false }
  else { b with count := b.count - 1 }

/-! ## The ranker's minute event (R147 to R155) -/

/-- Escalation of one record under E (R147, R148): U is recomputed when s has risen. -/
def State.escalated (s : State) (r : FaultRecord) : FaultRecord :=
  match s.asset? r.asset with
  | none => r
  | some x =>
    let e := (s.faultProfile x.config.faultProfile).interval
    if r.state = .opened ∧ e ≠ 0 then
      if r.minutes + 1 < e then { r with minutes := r.minutes + 1 }
      else if r.steps < 15 then s.refreshed { r with minutes := 0, steps := r.steps + 1 }
      else { r with minutes := 0, steps := 15 }
    else r

/-- Stage 1: every record escalates, in RUN alone (R147, R148). -/
def State.escalateAll (s : State) : State :=
  if s.mode = .run then s.setRecords (s.records.mapAll fun _ r => s.escalated r) else s

/-- Stage 2: at a notice tick one CHANGED notice for each flagged record, in queue order (R154, R155). -/
def State.coalesce (s : State) : State :=
  if s.noticeTick then ((s.dispatchQueue.filter fun e => e.2.changeDue).map Prod.fst).foldl State.sendChanged s else s

/-- The ranker's minute event (R153). -/
def State.rankerMinute (s : State) : State := s.escalateAll.coalesce

/-! ## Window closes (R87 to R91) -/

/-- The band in force at a window's start minute: the one with the greatest start that is at most it (R89). -/
def LoopProfile.bandAt (p : LoopProfile) (start : Nat) : Band :=
  if p.band3.start ≤ start then p.band3
  else if p.band2.start ≤ start then p.band2
  else if p.band1.start ≤ start then p.band1
  else p.band0

/-- The start minute of a window that closes at a day-minute (R89). -/
def windowStart (dayMinute length : Nat) : Nat :=
  if length ≤ dayMinute then dayMinute - length else dayMinute + 1440 - length

/-- The loop-check result (R90). -/
def Window.check (w : Window) (b : Band) : Condition :=
  if w.gap then .unknown
  else if w.count = 0 ∧ 0 < b.min then .fail
  else if w.count < b.min then .degraded
  else if b.max < w.count then .degraded
  else .ok

/-- A window as its close leaves it (R91). -/
def Window.closed (w : Window) (b : Band) : Window :=
  { count := 0, gap := false, last := some w.count, result := w.check b }

/-- The profile of an asset whose window closes at a day-minute (R87). -/
def State.closingProfile (s : State) (dayMinute : Nat) (x : Asset) : Option LoopProfile :=
  match x.window, x.config.loopProfile with
  | some _, some p => if dayMinute % (s.loopProfile p).length = 0 then some (s.loopProfile p) else none
  | _, _ => none

/-- Close one asset's window and sample the asset (R91). -/
def State.closeWindow (s : State) (dayMinute a : Nat) : State :=
  match s.asset? a with
  | none => s
  | some x =>
    match s.closingProfile dayMinute x with
    | none => s
    | some p =>
      (s.putAsset a
        { x with window := x.window.map fun w => w.closed (p.bandAt (windowStart dayMinute p.length)) }).sample a

/-- The loop supervisor's minute event: in RUN with time valid, every due window in ascending asset number (R87, R88). -/
def State.closeWindows (s : State) : State :=
  match s.mode, s.time.dayMinute with
  | .run, some d =>
    (s.assets.keysWhere fun _ x => (s.closingProfile d x).isSome).foldl (fun t a => t.closeWindow d a) s
  | _, _ => s

/-! ## The storm monitor's minute event (R161 to R163) -/

/-- The evaluation in RUN: the new storm state, and the cause of a STORM notice if there is one (R162, R163). -/
def Storm.evaluated (m : Storm) : Storm × Option StormCause :=
  if m.on then
    if m.exit ≤ m.opens then ({ m with calm := 0 }, none)
    else if m.calmPeriod ≤ m.calm + 1 then ({ m with on := false, calm := 0 }, some .calm)
    else ({ m with calm := m.calm + 1 }, none)
  else if 0 < m.entry ∧ m.entry ≤ m.opens then ({ m with on := true }, some .entry)
  else (m, none)

/-- The storm monitor's minute event: an evaluation in RUN, and the count to 0 in every mode (R161). -/
def State.stormMinute (s : State) : State :=
  if s.mode = .run then
    let e := s.storm.evaluated
    let t := s.setStorm { e.1 with opens := 0 }
    match e.2 with
    | some cause => t.notify (.storm e.1.on cause s.storm.opens)
    | none => t
  else s.setStorm { s.storm with opens := 0 }

/-! ## The work of a tick (R172) -/

/-- A block's work at a tick, as an event of its own: with the counts the tick has left, and in the mode it was taken in,
since whatever changes these has the work done first (R172; log 5). -/
def State.tickWork (s : State) (w : TickWork) : State :=
  match w with
  | .line k => s.lineSecond k
  | .beacon b => s.adjustBeacon b Beacon.secondTick
  | .ranker => s.rankerMinute.settleBeacons
  | .windows => s.closeWindows.settleBeacons
  | .storm => s.stormMinute.settleBeacons

/-- A block does the work handed to it; with none handed on there is no event (log 16). -/
def State.doOwed (s : State) (w : TickWork) : State :=
  if s.owed.contains w then (s.setOwed (s.owed.erase w)).tickWork w else s

/-- The work still owed is done, block after block in a free order, before an event that moves the counts or the mode: a
further tick, a TIME, the entry to RUN and its end (R172, R173; logs 5 and 7). -/
def State.finishOwed (s : State) : State :=
  match s.owed with
  | [] => s
  | w :: rest => ((freeOrder s.freeCount (w :: rest)).foldl State.doOwed s).setFreeCount (s.freeCount + 1)

/-- SECOND_TICK (R171, R172): each block then does its work by its own row (log 5). -/
def execSecondTick (s : State) : Host.Outcome State Fault Refusal := unlessHeld s fun s => s.finishOwed.tickSecond

/-- MINUTE_TICK: the second count wraps (R171). Commanded away from second 59 it is the minute tick that R173 takes as if
the clock had run on (log 6). -/
def execMinuteTick (s : State) : Host.Outcome State Fault Refusal := unlessHeld s fun s => s.finishOwed.tickMinute

/-- LINE_SECOND_WORK: the line unit's work at a second tick (R33, R172). -/
def execLineSecondWork (k : Fin 4) (s : State) : Host.Outcome State Fault Refusal :=
  unlessHeld s fun s => s.doOwed (.line k)

/-- BEACON_STRETCH_TICK: the beacon output's work at a second tick (R168, R172). -/
def execBeaconStretchTick (b : Fin 4) (s : State) : Host.Outcome State Fault Refusal :=
  unlessHeld s fun s => s.doOwed (.beacon b)

/-- RANKER_MINUTE_EVENT (R153, R172). -/
def execRankerMinuteEvent (s : State) : Host.Outcome State Fault Refusal := unlessHeld s fun s => s.doOwed .ranker

/-- WINDOW_CLOSE_EVENT (R88, R172). -/
def execWindowCloseEvent (s : State) : Host.Outcome State Fault Refusal := unlessHeld s fun s => s.doOwed .windows

/-- STORM_MINUTE_EVENT (R161, R172). -/
def execStormMinuteEvent (s : State) : Host.Outcome State Fault Refusal := unlessHeld s fun s => s.doOwed .storm

/-! ## TIME (R173) -/

/-- Step 1 of TIME: the minute tick of a second carried below the held one, with every block's minute work (R173) in an
order that R172 leaves open (log 7). -/
def State.runOn (s : State) : State :=
  ((freeOrder s.freeCount [State.rankerMinute, State.closeWindows, State.stormMinute]).foldl (fun t work => work t)
    (s.setTime s.time.minuteTick)).setFreeCount (s.freeCount + 1)

/-- A TIME that is taken, up to its reply: steps 1 to 3 (R173). No beacon source reads what steps 2 and 3 change, so the
evaluation of the event's end follows step 1. -/
def State.takeTime (s : State) (dayMinute second : Nat) : State :=
  let t := if second < s.time.second then s.runOn.settleBeacons else s
  (t.setTime { t.time with second := second, dayMinute := some dayMinute }).gapEveryLoop

/-- TIME, served in every mode and on the group address (R173, R183). The work of a tick taken before it is done before it
sets the counts (R173). -/
def execTime (addr : Byte) (req : Request) (s : State) : Host.Outcome State Fault Refusal :=
  groupDirective addr req.tag s fun dest s =>
    let fs := req.fields
    if fs.length < 3 ∨ 1439 < wordAt fs 0 ∨ 59 < byteAt fs 2 then s.replyIfOwed dest .badEntry
    else (s.finishOwed.takeTime (wordAt fs 0) (byteAt fs 2)).replyIfOwed dest .done

end Sys2Proof.Machine
end

