-- ==== Sys2Proof/Machine/TrunkUnit.lean ====
section
/-! DEFINITION. The trunk unit's own commands: STATUS, BEACON-RESET, frames that name no directive, discarded and ignored
frames, and the transmitter (chapter 11, R169). -/

namespace Sys2Proof.Machine

/-! ## BEACON-RESET (R169) -/

/-- A LATCHED beacon under BEACON-RESET: the latch is cleared, and set again at once while the source is true; else the
output goes off. Any other stretch is left alone (R169). -/
def Beacon.unlatch (b : Beacon) : Beacon :=
  match b.stretch with
  | .latched => if b.value then { b with latch := true } else { b with latch := false, output := false }
  | _ => b

/-- BEACON-RESET (R169). -/
def beaconReset (fs : List Byte) (s : State) : Except ReplyCode State :=
  match finKey 4 1 fs with
  | .error code => .error code
  | .ok b => .ok (s.adjustBeacon b Beacon.unlatch)

def execBeaconReset (addr : Byte) (req : Request) (s : State) : Host.Outcome State Fault Refusal :=
  directive addr req.tag s fun dest s => s.answer dest (beaconReset req.fields s)

/-! ## STATUS (R193) -/

/-- The six counters of a line at 0 (R39). -/
def Line.cleared (l : Line) : Line := { l with counters := .zero }

/-- Every counter at 0: the line counters, the unresolved-drop counter and the trunk check counter (R193). -/
def State.clearCounters (s : State) : State :=
  ((s.setLines (s.lines.map Line.cleared)).setDrops 0).setTrunk { s.trunk with checkFails := 0 }

/-- STATUS with clear option no (R193). -/
def execStatus (addr : Byte) (req : StatusRequest) (s : State) : Host.Outcome State Fault Refusal :=
  directive addr req.tag s fun dest s =>
    if req.hasOption then s.reply dest .done s.statusBytes else s.reply dest .badEntry []

/-- STATUS with clear option yes: the counters are reported as they were, then set to 0 (R193). -/
def execStatusClear (addr : Byte) (req : StatusRequest) (s : State) : Host.Outcome State Fault Refusal :=
  directive addr req.tag s fun dest s =>
    if req.hasOption then s.clearCounters.reply dest .done s.statusBytes else s.reply dest .badEntry []

/-! ## Frames that are no directive (R181, R182, R184) -/

/-- UNKNOWN_KIND: answered UNKNOWN-KIND on the part's own addresses, ignored on any other (R184, R183). -/
def execUnknownKind (addr _kind : Byte) (req : Request) (s : State) : Host.Outcome State Fault Refusal :=
  directive addr req.tag s fun dest s => s.reply dest .unknownKind []

/-- TRUNK_CHECK_FAIL: discarded and counted, whatever the cause and the address (R181). -/
def execTrunkCheckFail (_cause : TrunkDiscard) (s : State) : Host.Outcome State Fault Refusal :=
  unlessHeld s fun s => s.setTrunk { s.trunk with checkFails := bump s.trunk.checkFails }

/-- TRUNK_FRAME_IGNORED: not counted, not answered, no state changed (R182, R183). -/
def execTrunkFrameIgnored (_addr _kind : Byte) (s : State) : Host.Outcome State Fault Refusal :=
  unlessHeld s fun s => s

/-! ## The transmitter (R188, R190) -/

/-- The transmitter begins the oldest waiting frame: its header takes the lost flag and the storm state, and the lost
flag is cleared (R190). The START notice of a restart is begun like any other frame: it carries the flag clear, as R190
says, unless a discard after the restart has set it before START begins, where R190 points both ways and the model lets
START carry the loss (DESIGN CHOICE, log 29). -/
def Trunk.begun (t : Trunk) (storm : Bool) : Trunk :=
  match t.sending, t.waiting with
  | none, f :: rest =>
    { t with waiting := rest, sending := some { frame := f, lost := t.lost, storm := storm, slot := true }, lost := false }
  | _, _ => t

/-- TRANSMIT_BEGIN: no effect unless the transmitter is idle and a frame waits (R188, R190). -/
def execTransmitBegin (s : State) : Host.Outcome State Fault Refusal :=
  unlessHeld s fun s => s.setTrunk (s.trunk.begun s.storm.on)

/-- TRANSMIT_COMPLETE: the frame in transmission leaves, and its slot is free (R188, R191). -/
def execTransmitComplete (s : State) : Host.Outcome State Fault Refusal :=
  unlessHeld s fun s => s.setTrunk { s.trunk with sending := none }

end Sys2Proof.Machine
end

