-- ==== Sys2Proof/Machine/Modes.lean ====
section
/-! DEFINITION. Operating modes and restarts (chapter 10), and the entry to RUN that ends the rebuild (R176). -/

namespace Sys2Proof.Machine

/-! ## Entering RUN (R175, R176, R137) -/

/-- Every record's n becomes 0 and its U is recomputed (R137). -/
def State.zeroAbsorbed (s : State) : State :=
  s.setRecords (s.records.mapAll fun _ r => s.refreshed { r with absorbed := 0 })

/-- The full-due flag of every present outstation is set (R31, R175). -/
def State.fullDueEverywhere (s : State) : State :=
  s.setOutstations (s.outstations.mapAll fun _ x => { x with fullDue := true })

/-- The part enters RUN: mode, lines, and the deferred reply DONE where one is owed (R176). -/
def State.enterRun (s : State) (owed : Option ReplyTo) : State :=
  (((s.setMode .run).setRebuild none).readyLines).replyIfOwed owed .done

/-- Steps 1 to 4 of the entry to RUN (R175). The storm state is off throughout (R160). -/
def State.beginEntering (s : State) (owed : Option ReplyTo) : State :=
  ((((((s.setMode .entering).setRebuild (some { last := none, owed := owed })).fullDueEverywhere).gapEveryLoop.setWalk
    none).setWalkList []).setStorm { s.storm with on := false, calm := 0 }).zeroAbsorbed

/-- A MODE RUN taken in MAINTAIN: with no present asset the rebuild has no visit, and the part enters RUN within the same
event (R175, R176). -/
def State.startRun (s : State) (owed : Option ReplyTo) : State :=
  let t := s.beginEntering owed
  (if (t.rebuildNext none).isNone then t.enterRun owed else t).settleBeacons

/-- MODE with code RUN (R174, R175). The work of a tick taken in MAINTAIN is done there (R172; log 5). -/
def execModeRun (addr : Byte) (req : CodedRequest) (s : State) : Host.Outcome State Fault Refusal :=
  groupDirective addr req.tag s fun dest s =>
    match s.mode, req.fields? with
    | .entering, _ => s.replyIfOwed dest .busy
    | _, none => s.replyIfOwed dest .badEntry
    | .run, some _ => s.replyIfOwed dest .done
    | .maintain, some _ => s.finishOwed.startRun dest

/-! ## Leaving RUN (R177, R165) -/

/-- The storm monitor ends any storm as the part enters MAINTAIN, with its notice, and sets the open count to 0 (R165). -/
def State.endStorm (s : State) : State :=
  let t := s.setStorm { s.storm with on := false, calm := 0, opens := 0 }
  if s.storm.on then t.notify (.storm false .maintain 0) else t

/-- A MODE MAINTAIN taken in RUN, up to its reply (R177). -/
def State.leaveRun (s : State) : State :=
  (((((s.setMode .maintain).haltLine 0).haltLine 1).haltLine 2).haltLine 3).endStorm.settleBeacons

/-- MODE with code MAINTAIN (R174, R177). The work of a tick taken in RUN is done there (R172; log 5). -/
def execModeMaintain (addr : Byte) (req : CodedRequest) (s : State) : Host.Outcome State Fault Refusal :=
  groupDirective addr req.tag s fun dest s =>
    match s.mode, req.fields? with
    | .entering, _ => s.replyIfOwed dest .busy
    | _, none => s.replyIfOwed dest .badEntry
    | .maintain, some _ => s.replyIfOwed dest .done
    | .run, some _ => s.finishOwed.leaveRun.replyIfOwed dest .done

/-! ## Restarts (R178, R179) -/

/-- A line after RESTART RUNTIME (R42); the receiver goes on (log 20). -/
def Line.restarted (l : Line) : Line := { l.emptied.atStart with counters := .zero }

/-- An outstation after RESTART RUNTIME (R20). -/
def Outstation.restarted (x : Outstation) : Outstation :=
  { x with comms := .new, retry := 0, lastHeard := none, countdown := 0, fullDue := true, integrityDue := false }

/-- An asset after RESTART RUNTIME (R14). -/
def Asset.restarted (x : Asset) : Asset :=
  { x with integrator := 0, health := .healthy, absorbedBy := none, faultId := none, waiting := false,
           window := if x.config.kind = .loop then some .fresh else none }

/-- The point map after RESTART RUNTIME: PENDING entries removed, conditions UNKNOWN, baselines absent (R46). -/
def restartedPoints (points : Table Point) : Table Point :=
  Table.mapAll (points.filter fun e => e.2.resolved) fun _ p => p.silenced

/-- The trunk unit after a restart by directive: the waiting frames gone, the lost flag and the check counter cleared, a
frame in transmission completing without its slot (R178, R181, R191). -/
def Trunk.restarted (t : Trunk) : Trunk :=
  { t with waiting := [], lost := false, checkFails := 0, sending := t.sending.map fun x => { x with slot := false } }

/-- The beacons after RESTART RUNTIME, each started afresh under its source (R170). -/
def State.restartBeacons (s : State) : State :=
  s.setBeacons (s.beacons.map fun b => b.startAfresh (s.sourceValue b.source b.argument))

/-- RESTART RUNTIME (R178, R179): what the part learned from the field is cleared, what it was told is kept. The time base
is kept, but for work of its ticks that is not done yet: work in flight is dropped, and nothing that this work could leave
outlives the restart (log 5). The bytes of a frame still being received on a line that stays READY are kept (log 20). -/
def State.restartRuntime (s : State) : State :=
  let t : State :=
    { s with
      mode := if s.mode = .run then .run else .maintain,
      owed := [],
      assets := s.assets.mapAll fun _ x => x.restarted,
      outstations := s.outstations.mapAll fun _ x => x.restarted,
      lines := s.lines.map Line.restarted,
      points := restartedPoints s.points,
      drops := 0,
      records := [],
      nextId := 1,
      waiting := [],
      walkList := [],
      walk := none,
      rebuild := none,
      storm := { s.storm with on := false, calm := 0, opens := 0 },
      trunk := s.trunk.restarted }
  (t.restartBeacons).notify (.start .runtime t.mode)

/-- RESTART FULL (R178, R179): the power-on values, but for the part addresses, and a frame in transmission that
completes (R191). -/
def State.restartFull (s : State) : State :=
  ({ State.reset with
      trunk := s.trunk.restarted, freeCount := s.freeCount, pending := s.pending } : State).notify (.start .full .maintain)

/-- RESTART with kind RUNTIME: no reply when taken, BAD-ENTRY for a missing or unknown kind (R178). -/
def execRestartRuntime (addr : Byte) (req : CodedRequest) (s : State) : Host.Outcome State Fault Refusal :=
  groupDirective addr req.tag s fun dest s =>
    match req.fields? with
    | none => s.replyIfOwed dest .badEntry
    | some _ => s.restartRuntime

/-- RESTART with kind FULL (R178). -/
def execRestartFull (addr : Byte) (req : CodedRequest) (s : State) : Host.Outcome State Fault Refusal :=
  groupDirective addr req.tag s fun dest s =>
    match req.fields? with
    | none => s.replyIfOwed dest .badEntry
    | some _ => s.restartFull

/-- POWER_ON: every block at its power-on values, whether the reset input was held or supply is applied (R178). -/
def execPowerOn (s : State) : Host.Outcome State Fault Refusal :=
  .next { State.reset with freeCount := s.freeCount, pending := s.pending }

/-- RESET_INPUT_ACTIVE: the transmitter stops, the frame it was sending is broken off, and the part is held until the
input is released (R191, log 4). -/
def execResetInputActive (s : State) : Host.Outcome State Fault Refusal :=
  .next ((s.setResetHeld true).setTrunk { s.trunk with sending := none })

end Sys2Proof.Machine
end

