-- ==== Sys2Proof/Machine/Walks.lean ====
section
/-! DEFINITION. The correlation unit's walks (chapter 7): their beginning, one visit of each kind, and the rebuild. -/

namespace Sys2Proof.Machine

/-- The next cursor of a walk (R130). -/
def State.walkNext (s : State) (w : Walk) : Option (List Nat) := nextCursor s w.root w.cursor

/-- The head entry as a walk in flight; an ABSORB walk notes the fault ID of its root's record (R129). -/
def State.walkOf (s : State) (e : WalkEntry) : Walk :=
  { root := e.root, kind := e.kind, recorded := if e.kind = .absorb then s.faultIdOf e.root else none, cursor := [] }

/-- Does a walk end as it begins: an ABSORB walk whose root holds no record (R131), a root with no descendants (R129)? -/
def State.endsAtOnce (s : State) (w : Walk) : Bool :=
  (w.kind = .absorb ∧ w.recorded.isNone) ∨ (s.walkNext w).isNone

/-- WALK_BEGIN: in RUN, with no walk in flight and an entry on the list (R129, log 16). -/
def State.beginWalk (s : State) : State :=
  match s.mode, s.walk, s.walkList with
  | .run, none, e :: rest =>
    (s.setWalkList rest).setWalk (if s.endsAtOnce (s.walkOf e) then none else some (s.walkOf e))
  | _, _, _ => s

def execWalkBegin (s : State) : Host.Outcome State Fault Refusal := unlessHeld s State.beginWalk

/-- Set an asset's absorbed-by. -/
def State.setAbsorber (s : State) (d : Nat) (z : Option Nat) : State :=
  s.adjustAsset d fun x => { x with absorbedBy := z }

/-- The walk in flight at its new cursor; it ends with the visit after which no asset is left (R129, R130, log 15). -/
def State.advanceWalk (s : State) (w : Walk) (cursor : List Nat) : State :=
  s.setWalk (if (nextCursor s w.root cursor).isNone then none else some { w with cursor := cursor })

/-! ## ABSORB (R131, R132) -/

/-- If the asset is FAULTY, make the requests (R132, R134). -/
def Asset.faulty (x : Asset) : Bool := x.health ≠ .healthy

/-- A visit of descendant d by an ABSORB walk of root a, whose record has the given ID (R132). -/
def State.absorbAt (s : State) (a id d : Nat) : State :=
  match s.asset? d with
  | none => s
  | some x =>
    if x.absorbedBy = some a then s
    else
      let s1 := s.setAbsorber d (some a)
      let s2 := match x.faulty, x.absorbedBy with
        | true, some z => s1.lowerOn z
        | _, _ => s1
      let s3 := if x.faulty then s2.raiseOn a else s2
      let s4 := match x.faultId with
        | some own => s3.absorbRecord own d id
        | none => s3
      if x.waiting then s4.leaveWaiting d else s4

/-- One visit of the ABSORB walk in flight: abandoned when its root no longer holds the recorded record, else the next
descendant (R131, R132). -/
def State.absorbVisit (s : State) : State :=
  match s.mode, s.walk with
  | .run, some w =>
    match w.kind with
    | .absorb =>
      match w.recorded with
      | none => s.setWalk none
      | some id =>
        if s.faultIdOf w.root ≠ some id then s.setWalk none
        else match s.walkNext w with
          | none => s.setWalk none
          | some cursor => (s.absorbAt w.root id (cursor.getLastD w.root)).advanceWalk w cursor
    | .release => s
  | _, _ => s

def execAbsorbVisit (s : State) : Host.Outcome State Fault Refusal :=
  unlessHeld s fun s => s.absorbVisit.settleBeacons

/-! ## RELEASE (R133, R134) -/

/-- Does a RELEASE walk of root a act on a descendant: does it name a, or another asset that holds no record (R134)? -/
def State.releases (s : State) (a : Nat) (x : Asset) : Bool :=
  match x.absorbedBy with
  | none => false
  | some z => z = a ∨ (s.faultIdOf z).isNone

/-- A visit of descendant d by a RELEASE walk of root a (R134). -/
def State.releaseAt (s : State) (a d : Nat) : State :=
  match s.asset? d with
  | none => s
  | some x =>
    if s.releases a x then
      match s.highestHolder d with
      | some z =>
        let t := s.setAbsorber d (some z)
        if x.faulty then t.raiseOn z else t
      | none =>
        let t := s.setAbsorber d none
        if x.faulty then t.openFault d else t
    else s

/-- One visit of the RELEASE walk in flight: abandoned when its root holds a record, else the next descendant (R133,
R134). -/
def State.releaseVisit (s : State) : State :=
  match s.mode, s.walk with
  | .run, some w =>
    match w.kind with
    | .release =>
      if (s.faultIdOf w.root).isSome then s.setWalk none
      else match s.walkNext w with
        | none => s.setWalk none
        | some cursor => (s.releaseAt w.root (cursor.getLastD w.root)).advanceWalk w cursor
    | .absorb => s
  | _, _ => s

def execReleaseVisit (s : State) : Host.Outcome State Fault Refusal :=
  unlessHeld s fun s => s.releaseVisit.settleBeacons

/-! ## The rebuild (R137 to R139) -/

/-- The rebuild's visit of an asset under an ancestor that holds a record: its record is absorbed, it leaves the waiting
list, and it is counted (R138, steps 2 to 4). -/
def State.rebuildUnder (s : State) (v h : Nat) (x : Asset) : State :=
  let s1 := match x.faultId with
    | some own => s.absorbRecord own v ((s.faultIdOf h).getD 0)
    | none => s
  let s2 := if x.waiting then s1.leaveWaiting v else s1
  if x.faulty then s2.raiseOn h else s2

/-- The rebuild's visit of asset v (R138). -/
def State.rebuildAt (s : State) (v : Nat) : State :=
  match s.asset? v with
  | none => s
  | some x =>
    let t := s.setAbsorber v (s.highestHolder v)
    match s.highestHolder v with
    | some h => t.rebuildUnder v h x
    | none => if x.faulty ∧ x.faultId = none ∧ x.waiting = false then t.openFault v else t

/-- One visit of the rebuild in flight; with the last present asset visited the part enters RUN (R138, R139, R176). -/
def State.rebuildVisit (s : State) : State :=
  match s.mode, s.rebuild with
  | .entering, some b =>
    match s.rebuildNext b.last with
    | none => s.enterRun b.owed
    | some v =>
      let t := (s.rebuildAt v).setRebuild (some { b with last := some v })
      if (t.rebuildNext (some v)).isNone then t.enterRun b.owed else t
  | _, _ => s

/-- Does the next visit of the rebuild enter RUN (R176)? -/
def State.entersRun (s : State) : Bool :=
  match s.mode, s.rebuild with
  | .entering, some b =>
    match s.rebuildNext b.last with
    | none => true
    | some v => (s.rebuildNext (some v)).isNone
  | _, _ => false

/-- REBUILD_VISIT. The work of a tick taken in ENTERING is done there (R172; log 5). -/
def execRebuildVisit (s : State) : Host.Outcome State Fault Refusal :=
  unlessHeld s fun s => (if s.entersRun then s.finishOwed else s).rebuildVisit.settleBeacons

end Sys2Proof.Machine
end

