-- ==== Sys2Proof/Machine/Dispatch.lean ====
section
/-! DEFINITION. Every command of spec/opcode_table.json and its meaning, one arm each. -/

namespace Sys2Proof.Machine

def exec (i : Instr) (s : State) : Host.Outcome State Fault Refusal :=
  match i with
  | .partLoad addr req => Sys2Proof.Machine.execPartLoad addr req s
  | .lineLoad addr req => Sys2Proof.Machine.execLineLoad addr req s
  | .outstationLoad addr req => Sys2Proof.Machine.execOutstationLoad addr req s
  | .assetLoad addr req => Sys2Proof.Machine.execAssetLoad addr req s
  | .pointLoad addr req => Sys2Proof.Machine.execPointLoad addr req s
  | .faultProfileLoad addr req => Sys2Proof.Machine.execFaultProfileLoad addr req s
  | .loopProfileLoad addr req => Sys2Proof.Machine.execLoopProfileLoad addr req s
  | .stormLoad addr req => Sys2Proof.Machine.execStormLoad addr req s
  | .beaconLoad addr req => Sys2Proof.Machine.execBeaconLoad addr req s
  | .partErase addr req => Sys2Proof.Machine.execPartErase addr req s
  | .lineErase addr req => Sys2Proof.Machine.execLineErase addr req s
  | .outstationErase addr req => Sys2Proof.Machine.execOutstationErase addr req s
  | .assetErase addr req => Sys2Proof.Machine.execAssetErase addr req s
  | .pointErase addr req => Sys2Proof.Machine.execPointErase addr req s
  | .faultProfileErase addr req => Sys2Proof.Machine.execFaultProfileErase addr req s
  | .loopProfileErase addr req => Sys2Proof.Machine.execLoopProfileErase addr req s
  | .stormErase addr req => Sys2Proof.Machine.execStormErase addr req s
  | .beaconErase addr req => Sys2Proof.Machine.execBeaconErase addr req s
  | .partRead addr req => Sys2Proof.Machine.execPartRead addr req s
  | .lineRead addr req => Sys2Proof.Machine.execLineRead addr req s
  | .outstationRead addr req => Sys2Proof.Machine.execOutstationRead addr req s
  | .assetRead addr req => Sys2Proof.Machine.execAssetRead addr req s
  | .pointRead addr req => Sys2Proof.Machine.execPointRead addr req s
  | .faultProfileRead addr req => Sys2Proof.Machine.execFaultProfileRead addr req s
  | .loopProfileRead addr req => Sys2Proof.Machine.execLoopProfileRead addr req s
  | .stormRead addr req => Sys2Proof.Machine.execStormRead addr req s
  | .beaconRead addr req => Sys2Proof.Machine.execBeaconRead addr req s
  | .list addr req => Sys2Proof.Machine.execList addr req s
  | .faultById addr req => Sys2Proof.Machine.execFaultById addr req s
  | .faultByAsset addr req => Sys2Proof.Machine.execFaultByAsset addr req s
  | .ack addr req => Sys2Proof.Machine.execAck addr req s
  | .close addr req => Sys2Proof.Machine.execClose addr req s
  | .time addr req => Sys2Proof.Machine.execTime addr req s
  | .modeRun addr req => Sys2Proof.Machine.execModeRun addr req s
  | .modeMaintain addr req => Sys2Proof.Machine.execModeMaintain addr req s
  | .restartRuntime addr req => Sys2Proof.Machine.execRestartRuntime addr req s
  | .restartFull addr req => Sys2Proof.Machine.execRestartFull addr req s
  | .downlink addr req => Sys2Proof.Machine.execDownlink addr req s
  | .resync addr req => Sys2Proof.Machine.execResync addr req s
  | .beaconReset addr req => Sys2Proof.Machine.execBeaconReset addr req s
  | .status addr req => Sys2Proof.Machine.execStatus addr req s
  | .statusClear addr req => Sys2Proof.Machine.execStatusClear addr req s
  | .unknownKind addr kind req => Sys2Proof.Machine.execUnknownKind addr kind req s
  | .trunkCheckFail cause => Sys2Proof.Machine.execTrunkCheckFail cause s
  | .trunkFrameIgnored addr kind => Sys2Proof.Machine.execTrunkFrameIgnored addr kind s
  | .powerOn => Sys2Proof.Machine.execPowerOn s
  | .transmitBegin => Sys2Proof.Machine.execTransmitBegin s
  | .transmitComplete => Sys2Proof.Machine.execTransmitComplete s
  | .tally line addr payload => Sys2Proof.Machine.execTally line addr payload s
  | .quiet line addr payload => Sys2Proof.Machine.execQuiet line addr payload s
  | .fieldFrameDiscard line bytes => Sys2Proof.Machine.execFieldFrameDiscard line bytes s
  | .stray line addr kind payload => Sys2Proof.Machine.execStray line addr kind payload s
  | .pollChoose line => Sys2Proof.Machine.execPollChoose line s
  | .exceptionChoose line => Sys2Proof.Machine.execExceptionChoose line s
  | .sweepSent line => Sys2Proof.Machine.execSweepSent line s
  | .orderSent line => Sys2Proof.Machine.execOrderSent line s
  | .sweepTimeout line => Sys2Proof.Machine.execSweepTimeout line s
  | .orderTimeout line => Sys2Proof.Machine.execOrderTimeout line s
  | .secondTick => Sys2Proof.Machine.execSecondTick s
  | .minuteTick => Sys2Proof.Machine.execMinuteTick s
  | .lineSecondWork line => Sys2Proof.Machine.execLineSecondWork line s
  | .beaconStretchTick beacon => Sys2Proof.Machine.execBeaconStretchTick beacon s
  | .rankerMinuteEvent => Sys2Proof.Machine.execRankerMinuteEvent s
  | .windowCloseEvent => Sys2Proof.Machine.execWindowCloseEvent s
  | .stormMinuteEvent => Sys2Proof.Machine.execStormMinuteEvent s
  | .walkBegin => Sys2Proof.Machine.execWalkBegin s
  | .absorbVisit => Sys2Proof.Machine.execAbsorbVisit s
  | .releaseVisit => Sys2Proof.Machine.execReleaseVisit s
  | .rebuildVisit => Sys2Proof.Machine.execRebuildVisit s
  | .resetInputActive => Sys2Proof.Machine.execResetInputActive s

end Sys2Proof.Machine
end

