-- ==== Sys2Proof/WellFormed.lean ====
section
/-! DEFINITION. Which commands can arise from frames: the length byte of a frame bounds its payload (chapter 12),
and a row that a kind byte selects holds no other kind. -/

namespace Sys2Proof

/-- The kinds of the fourteen directives (R196). -/
def directiveKinds : List Byte :=
  [0x21, 0x22, 0x23, 0x24, 0x25, 0x26, 0x27, 0x28, 0x29, 0x2A, 0x2B, 0x2C, 0x2D, 0x2E]

/-- The kinds that are taken on the group address: TIME, MODE and RESTART (R183). -/
def groupKinds : List Byte := [0x28, 0x29, 0x2A]

/-- A trunk payload holds at most 250 bytes, the tag among them (R181). -/
def Request.wf : Request → Bool
  | .empty => true
  | .tagged _ fields => fields.length + 1 ≤ 250

/-- As Request.wf, with the tag and the code before the fields. -/
def CodedRequest.wf : CodedRequest → Bool
  | .coded _ fields => fields.length + 2 ≤ 250
  | _ => true

/-- Does the payload name its row: does it hold the code that the row stands for? -/
def CodedRequest.named : CodedRequest → Bool
  | .coded _ _ => true
  | _ => false

/-- Does the payload of a STATUS hold its clear option? -/
def StatusRequest.named : StatusRequest → Bool
  | .given _ => true
  | _ => false

/-- Does a directive's payload name its row? A missing or unknown code is refused alike by every row of its directive
(log 2). -/
def Instr.namesItsRow : Instr → Bool
  | .partLoad _ r | .lineLoad _ r | .outstationLoad _ r | .assetLoad _ r | .pointLoad _ r | .faultProfileLoad _ r
  | .loopProfileLoad _ r | .stormLoad _ r | .beaconLoad _ r | .partErase _ r | .lineErase _ r | .outstationErase _ r
  | .assetErase _ r | .pointErase _ r | .faultProfileErase _ r | .loopProfileErase _ r | .stormErase _ r
  | .beaconErase _ r | .partRead _ r | .lineRead _ r | .outstationRead _ r | .assetRead _ r | .pointRead _ r
  | .faultProfileRead _ r | .loopProfileRead _ r | .stormRead _ r | .beaconRead _ r | .faultById _ r
  | .faultByAsset _ r | .modeRun _ r | .modeMaintain _ r | .restartRuntime _ r | .restartFull _ r => r.named
  | .status _ r | .statusClear _ r => r.named
  | .list _ _ | .ack _ _ | .close _ _ | .time _ _ | .downlink _ _ | .resync _ _ | .beaconReset _ _ | .unknownKind _ _ _
  | .trunkFrameIgnored _ _ | .tally _ _ _ | .quiet _ _ _ | .stray _ _ _ _ | .fieldFrameDiscard _ _ | .trunkCheckFail _
  | .powerOn | .transmitBegin | .transmitComplete | .pollChoose _ | .exceptionChoose _ | .sweepSent _ | .orderSent _
  | .sweepTimeout _ | .orderTimeout _ | .secondTick | .minuteTick | .lineSecondWork _ | .beaconStretchTick _
  | .rankerMinuteEvent | .windowCloseEvent | .stormMinuteEvent | .walkBegin | .absorbVisit | .releaseVisit
  | .rebuildVisit | .resetInputActive => true

/-- Can the command arise? Any bytes may arrive on a field line. -/
def Instr.wf : Instr → Bool
  | .partLoad _ r | .lineLoad _ r | .outstationLoad _ r | .assetLoad _ r | .pointLoad _ r | .faultProfileLoad _ r
  | .loopProfileLoad _ r | .stormLoad _ r | .beaconLoad _ r | .partErase _ r | .lineErase _ r | .outstationErase _ r
  | .assetErase _ r | .pointErase _ r | .faultProfileErase _ r | .loopProfileErase _ r | .stormErase _ r
  | .beaconErase _ r | .partRead _ r | .lineRead _ r | .outstationRead _ r | .assetRead _ r | .pointRead _ r
  | .faultProfileRead _ r | .loopProfileRead _ r | .stormRead _ r | .beaconRead _ r | .faultById _ r
  | .faultByAsset _ r | .modeRun _ r | .modeMaintain _ r | .restartRuntime _ r | .restartFull _ r => r.wf
  | .list _ r | .ack _ r | .close _ r | .time _ r | .downlink _ r | .resync _ r | .beaconReset _ r => r.wf
  | .unknownKind _ kind r => r.wf && !directiveKinds.contains kind
  | .trunkFrameIgnored addr kind => !(addr == 254 && groupKinds.contains kind)
  | .tally _ _ payload | .quiet _ _ payload => payload.length ≤ 255
  | .stray _ _ kind payload => payload.length ≤ 255 && (kind == 0x11 || kind == 0x12)
  | .fieldFrameDiscard _ _ | .status _ _ | .statusClear _ _ | .trunkCheckFail _ | .powerOn | .transmitBegin
  | .transmitComplete | .pollChoose _ | .exceptionChoose _ | .sweepSent _ | .orderSent _ | .sweepTimeout _
  | .orderTimeout _ | .secondTick | .minuteTick | .lineSecondWork _ | .beaconStretchTick _ | .rankerMinuteEvent
  | .windowCloseEvent | .stormMinuteEvent | .walkBegin | .absorbVisit | .releaseVisit | .rebuildVisit
  | .resetInputActive => true

end Sys2Proof
end

