-- ==== Sys2Proof/Machine/Receive.lean ====
section
/-! DEFINITION. How commands arise from the bytes on the lines: the frames that arriving bytes make, the kinds and codes of
trunk frames, the recognition of addresses (R37, R181 to R184, R186, R195, R196), and the frames that bear each
directive. The commands the part itself raises (ticks, timers, visits, its transmitter) come from no bytes. -/

namespace Sys2Proof.Machine

/-! ## Directives (R186, R196) -/

/-- The payload of a directive that has no code. -/
def requestOf : List Byte → Request
  | [] => .empty
  | tag :: fields => .tagged tag fields

/-- The payload of a directive whose code must be below `limit` and at least `first`. -/
def codedRequestOf (first limit : Nat) : List Byte → CodedRequest
  | [] => .empty
  | [tag] => .codeMissing tag
  | tag :: code :: fields =>
    if first ≤ code.toNat ∧ code.toNat < limit then .coded tag fields else .codeUnknown tag

/-- The payload of a STATUS. -/
def statusRequestOf : List Byte → StatusRequest
  | [] => .empty
  | [tag] => .optionMissing tag
  | tag :: _ => .given tag

/-- The LOAD a table id names. A missing or unknown id is refused alike by all nine (R186); the row of PART stands for
it. -/
def loadOf (addr : Byte) (payload : List Byte) : Instr :=
  let req := codedRequestOf 1 10 payload
  match byteAt payload 1 with
  | 2 => .lineLoad addr req
  | 3 => .outstationLoad addr req
  | 4 => .assetLoad addr req
  | 5 => .pointLoad addr req
  | 6 => .faultProfileLoad addr req
  | 7 => .loopProfileLoad addr req
  | 8 => .stormLoad addr req
  | 9 => .beaconLoad addr req
  | _ => .partLoad addr req

/-- The ERASE a table id names. -/
def eraseOf (addr : Byte) (payload : List Byte) : Instr :=
  let req := codedRequestOf 1 10 payload
  match byteAt payload 1 with
  | 2 => .lineErase addr req
  | 3 => .outstationErase addr req
  | 4 => .assetErase addr req
  | 5 => .pointErase addr req
  | 6 => .faultProfileErase addr req
  | 7 => .loopProfileErase addr req
  | 8 => .stormErase addr req
  | 9 => .beaconErase addr req
  | _ => .partErase addr req

/-- The READ a table id names. -/
def readOf (addr : Byte) (payload : List Byte) : Instr :=
  let req := codedRequestOf 1 10 payload
  match byteAt payload 1 with
  | 2 => .lineRead addr req
  | 3 => .outstationRead addr req
  | 4 => .assetRead addr req
  | 5 => .pointRead addr req
  | 6 => .faultProfileRead addr req
  | 7 => .loopProfileRead addr req
  | 8 => .stormRead addr req
  | 9 => .beaconRead addr req
  | _ => .partRead addr req

/-- The directive a kind byte and a payload name, or the answer to an unknown kind (R184, R196). -/
def directiveOf (addr kind : Byte) (payload : List Byte) : Instr :=
  match kind.toNat with
  | 0x21 => loadOf addr payload
  | 0x22 => eraseOf addr payload
  | 0x23 => readOf addr payload
  | 0x24 => .list addr (requestOf payload)
  | 0x25 =>
    if byteAt payload 1 = 1 then .faultByAsset addr (codedRequestOf 0 2 payload)
    else .faultById addr (codedRequestOf 0 2 payload)
  | 0x26 => .ack addr (requestOf payload)
  | 0x27 => .close addr (requestOf payload)
  | 0x28 => .time addr (requestOf payload)
  | 0x29 =>
    if byteAt payload 1 = 1 then .modeRun addr (codedRequestOf 0 2 payload)
    else .modeMaintain addr (codedRequestOf 0 2 payload)
  | 0x2A =>
    if byteAt payload 1 = 1 then .restartFull addr (codedRequestOf 0 2 payload)
    else .restartRuntime addr (codedRequestOf 0 2 payload)
  | 0x2B => .downlink addr (requestOf payload)
  | 0x2C => .resync addr (requestOf payload)
  | 0x2D => .beaconReset addr (requestOf payload)
  | 0x2E =>
    if byteAt payload 1 = 0 then .status addr (statusRequestOf payload) else .statusClear addr (statusRequestOf payload)
  | _ => .unknownKind addr kind (requestOf payload)

/-- Is a complete trunk frame taken, as the addresses stand (R182, R183)? -/
def State.recognises (s : State) (addr kind : Byte) : Bool :=
  s.isOwn addr || (addr == groupAddress && groupKinds.contains kind)

/-- The command a complete trunk frame is: a directive, or a frame ignored (R182, R183, R184). -/
def State.trunkCommand (s : State) (addr kind : Byte) (payload : List Byte) : Instr :=
  if s.recognises addr kind then directiveOf addr kind payload else .trunkFrameIgnored addr kind

/-- The first command in the bytes on the trunk, and the bytes where the hunt resumes; none while no frame is whole
(R181). -/
def State.trunkNext (s : State) (bytes : List Byte) : Option (Instr × List Byte) :=
  match hunt bytes with
  | none => none
  | some rest =>
    match scanFrame 250 rest with
    | .incomplete => none
    | .lengthOver _ => some (.trunkCheckFail .lengthAbove250, rest)
    | .checkFailed => some (.trunkCheckFail .checkMismatch, rest)
    | .complete addr kind payload after => some (s.trunkCommand addr kind payload, after)

/-! ## Field lines (R37, R38) -/

/-- Is a complete answer a stray as the line stands: a well-formed frame of a present station that a POLLED line is not
awaiting (R30, R38)? -/
def State.isStray (s : State) (k : Fin 4) (addr kind : Byte) (payload : List Byte) : Bool :=
  match readAnswer kind payload, s.findSender k addr with
  | .ok _, .error .stray => true
  | _, _ => false

/-- The command a complete field frame is: a stray, an answer, or a frame discarded by another test of R38, which the
arriving bytes bring. -/
def State.fieldCommand (s : State) (k : Fin 4) (addr kind : Byte) (payload bytes : List Byte) : Instr :=
  if s.isStray k addr kind payload then .stray k addr kind payload
  else if kind = tallyKind then .tally k addr payload
  else if kind = quietKind then .quiet k addr payload
  else .fieldFrameDiscard k bytes

/-- The command that arriving bytes bring to a field line, and the bytes where the hunt resumes when it has been taken
(R37). Bytes of a frame that is not whole yet are held by the command and none is left; while the line is OFF or HALTED
they are discarded, as their command says, and none is left. -/
def State.fieldNext (s : State) (k : Fin 4) (bytes : List Byte) : Instr × List Byte :=
  if !s.receiving k then (.fieldFrameDiscard k bytes, [])
  else match hunt ((s.line k).received ++ bytes) with
    | none => (.fieldFrameDiscard k bytes, [])
    | some rest =>
      match scanFrame ((s.line k).settings.fmax - 6) rest with
      | .incomplete => (.fieldFrameDiscard k bytes, [])
      | .lengthOver _ => (.fieldFrameDiscard k bytes, rest)
      | .checkFailed => (.fieldFrameDiscard k bytes, rest)
      | .complete addr kind payload after => (s.fieldCommand k addr kind payload bytes, after)

/-! ## The frame that bears a directive (R196) -/

/-- A complete trunk frame: address, kind and payload. -/
structure Directive where
  addr : Byte
  kind : Byte
  payload : List Byte
  deriving DecidableEq, Repr

/-- The frame of a directive whose row is fixed by its kind. -/
def plainFrame (kind addr : Byte) (req : Request) : Option Directive :=
  match req with
  | .empty => some ⟨addr, kind, []⟩
  | .tagged tag fields => some ⟨addr, kind, tag :: fields⟩

/-- The frame of a directive whose row is fixed by its code; a code that names nothing is sent as 0xFF. -/
def codedFrame (kind code addr : Byte) (req : CodedRequest) : Option Directive :=
  match req with
  | .empty => some ⟨addr, kind, []⟩
  | .codeMissing tag => some ⟨addr, kind, [tag]⟩
  | .codeUnknown tag => some ⟨addr, kind, [tag, 0xFF]⟩
  | .coded tag fields => some ⟨addr, kind, tag :: code :: fields⟩

/-- The frame of a STATUS. -/
def statusFrame (option addr : Byte) (req : StatusRequest) : Option Directive :=
  match req with
  | .empty => some ⟨addr, 0x2E, []⟩
  | .optionMissing tag => some ⟨addr, 0x2E, [tag]⟩
  | .given tag => some ⟨addr, 0x2E, [tag, option]⟩

/-- The trunk frame by which the dispatch front end sends a directive (R196); the other commands come from no trunk frame
of their own. -/
def frameOf : Instr → Option Directive
  | .partLoad addr req => codedFrame 0x21 1 addr req
  | .lineLoad addr req => codedFrame 0x21 2 addr req
  | .outstationLoad addr req => codedFrame 0x21 3 addr req
  | .assetLoad addr req => codedFrame 0x21 4 addr req
  | .pointLoad addr req => codedFrame 0x21 5 addr req
  | .faultProfileLoad addr req => codedFrame 0x21 6 addr req
  | .loopProfileLoad addr req => codedFrame 0x21 7 addr req
  | .stormLoad addr req => codedFrame 0x21 8 addr req
  | .beaconLoad addr req => codedFrame 0x21 9 addr req
  | .partErase addr req => codedFrame 0x22 1 addr req
  | .lineErase addr req => codedFrame 0x22 2 addr req
  | .outstationErase addr req => codedFrame 0x22 3 addr req
  | .assetErase addr req => codedFrame 0x22 4 addr req
  | .pointErase addr req => codedFrame 0x22 5 addr req
  | .faultProfileErase addr req => codedFrame 0x22 6 addr req
  | .loopProfileErase addr req => codedFrame 0x22 7 addr req
  | .stormErase addr req => codedFrame 0x22 8 addr req
  | .beaconErase addr req => codedFrame 0x22 9 addr req
  | .partRead addr req => codedFrame 0x23 1 addr req
  | .lineRead addr req => codedFrame 0x23 2 addr req
  | .outstationRead addr req => codedFrame 0x23 3 addr req
  | .assetRead addr req => codedFrame 0x23 4 addr req
  | .pointRead addr req => codedFrame 0x23 5 addr req
  | .faultProfileRead addr req => codedFrame 0x23 6 addr req
  | .loopProfileRead addr req => codedFrame 0x23 7 addr req
  | .stormRead addr req => codedFrame 0x23 8 addr req
  | .beaconRead addr req => codedFrame 0x23 9 addr req
  | .list addr req => plainFrame 0x24 addr req
  | .faultById addr req => codedFrame 0x25 0 addr req
  | .faultByAsset addr req => codedFrame 0x25 1 addr req
  | .ack addr req => plainFrame 0x26 addr req
  | .close addr req => plainFrame 0x27 addr req
  | .time addr req => plainFrame 0x28 addr req
  | .modeRun addr req => codedFrame 0x29 1 addr req
  | .modeMaintain addr req => codedFrame 0x29 0 addr req
  | .restartRuntime addr req => codedFrame 0x2A 0 addr req
  | .restartFull addr req => codedFrame 0x2A 1 addr req
  | .downlink addr req => plainFrame 0x2B addr req
  | .resync addr req => plainFrame 0x2C addr req
  | .beaconReset addr req => plainFrame 0x2D addr req
  | .status addr req => statusFrame 0 addr req
  | .statusClear addr req => statusFrame 1 addr req
  | .unknownKind addr kind req => plainFrame kind addr req
  | .trunkCheckFail _ => none
  | .trunkFrameIgnored _ _ => none
  | .powerOn => none
  | .transmitBegin => none
  | .transmitComplete => none
  | .tally _ _ _ => none
  | .quiet _ _ _ => none
  | .fieldFrameDiscard _ _ => none
  | .stray _ _ _ _ => none
  | .pollChoose _ => none
  | .exceptionChoose _ => none
  | .sweepSent _ => none
  | .orderSent _ => none
  | .sweepTimeout _ => none
  | .orderTimeout _ => none
  | .secondTick => none
  | .minuteTick => none
  | .lineSecondWork _ => none
  | .beaconStretchTick _ => none
  | .rankerMinuteEvent => none
  | .windowCloseEvent => none
  | .stormMinuteEvent => none
  | .walkBegin => none
  | .absorbVisit => none
  | .releaseVisit => none
  | .rebuildVisit => none
  | .resetInputActive => none

end Sys2Proof.Machine
end

