-- ==== Sys2Proof/Safety.lean ====
section
/-! DEFINITION. What a sound state of the part is: tables in canonical form, every field within its range, integrators
below their ceilings, and the laws that tie assets, fault records, the waiting list and urgencies together. -/

namespace Sys2Proof.Machine

/-! ## Tables -/

/-- Every table is in canonical form. -/
abbrev State.Canonical (s : State) : Prop :=
  s.assets.wf = true ∧ s.outstations.wf = true ∧ s.points.wf = true ∧ s.records.wf = true

/-- The tables are canonical, the point map keeps its capacities (R45), the walk list has one entry per root (R127), and
no two outstations of a line share a station address (R21). -/
abbrev State.TablesSound (s : State) : Prop :=
  s.Canonical ∧ s.points.length ≤ Config.pointCapacity ∧ s.pendingPoints ≤ Config.pendingCapacity
    ∧ (s.walkList.map WalkEntry.root).Nodup
    ∧ ∀ e ∈ s.outstations, ∀ e' ∈ s.outstations,
        lineOf e.1 = lineOf e'.1 → e.2.config.address = e'.2.config.address → e.1 = e'.1

/-- Every parent is a present asset, and every asset lies at depth 1..6, which rules out a cycle (R4, R5). -/
abbrev State.TreeLaw (s : State) : Prop :=
  ∀ e ∈ s.assets, (∀ p ∈ e.2.config.parent, (s.asset? p).isSome = true) ∧ s.depthOf e.1 ≤ Config.maxDepth

/-! ## Ranges -/

/-- The ranges of section 10.1. -/
abbrev TimeBase.InRange (t : TimeBase) : Prop :=
  t.second ≤ 59 ∧ t.runMinute < 4294967296 ∧ ∀ d ∈ t.dayMinute, d ≤ 1439

/-- The ranges of chapter 11: addresses 1..253 that differ, at most 64 frames, a 16-bit counter (R180, R188). -/
abbrev Trunk.InRange (t : Trunk) : Prop :=
  t.occupancy ≤ Config.transmitCapacity ∧ 1 ≤ t.node.toNat ∧ t.node.toNat ≤ 253
    ∧ (∀ a ∈ t.alternate, 1 ≤ a.toNat ∧ a.toNat ≤ 253 ∧ a ≠ t.node) ∧ t.checkFails ≤ Config.counterBound

/-- The ranges of section 2.1. -/
abbrev LineSettings.InRange (l : LineSettings) : Prop :=
  1 ≤ l.t1 ∧ l.t1 ≤ 255 ∧ l.n2 ≤ 7 ∧ 1 ≤ l.rv ∧ l.rv ≤ 15 ∧ 10 ≤ l.g ∧ l.g ≤ 3600 ∧ 16 ≤ l.fmax ∧ l.fmax ≤ 255

/-- The bound of the six counters (R39). -/
abbrev LineCounters.InRange (c : LineCounters) : Prop :=
  c.good ≤ Config.counterBound ∧ c.checkErrors ≤ Config.counterBound ∧ c.overlong ≤ Config.counterBound
    ∧ c.unknownStation ≤ Config.counterBound ∧ c.strays ≤ Config.counterBound ∧ c.timeouts ≤ Config.counterBound

/-- A downlink entry of a line: 1..48 bytes for one of the line's 32 positions (section 2.7, R35). -/
abbrev Downlink.InRange (e : Downlink) (k : Fin 4) : Prop :=
  lineOf e.outstation = k.val ∧ 1 ≤ e.payload.length ∧ e.payload.length ≤ 48

/-- The downlink entry an ORDER delivers. -/
def TransactionKind.entry : TransactionKind → Option Downlink
  | .order e => some e
  | _ => none

/-- A transaction of a line: for one of its positions, with a timer of 1..255 exactly while its outstation is awaited and
no SWEEP is being sent again (R17, R29, R36). -/
abbrev Transaction.InRange (t : Transaction) (k : Fin 4) : Prop :=
  lineOf t.outstation = k.val ∧ (∀ e ∈ t.kind.entry, e.InRange k ∧ e.outstation = t.outstation)
    ∧ (∀ n ∈ t.timer, 1 ≤ n ∧ n ≤ 255) ∧ (t.timer ≠ none ↔ t.phase = .awaiting)

/-- Settings and counters in range; at most 4 downlink entries (R35); a poll position on the line (R27); at most 254 bytes
of a frame still being received (R37). -/
abbrev Line.InRange (l : Line) (k : Fin 4) : Prop :=
  l.settings.InRange ∧ l.counters.InRange ∧ l.queue.length ≤ Config.downlinkCapacity ∧ (∀ e ∈ l.queue, e.InRange k)
    ∧ (∀ t ∈ l.transaction, t.InRange k) ∧ (∀ o ∈ l.pollPosition, lineOf o = k.val) ∧ l.received.length ≤ 254

/-- A line that is OFF or HALTED has no work in hand and holds no bytes (R37, R41, R42). -/
abbrev State.IdleLinesEmpty (s : State) : Prop :=
  ∀ k : Fin 4, (s.mode ≠ .run ∨ (s.line k).settings.personality = .off) →
    (s.line k).transaction = none ∧ (s.line k).queue = [] ∧ (s.line k).received = []

/-- The countdown's range under the settings of its line (section 2.3, R18, R25, R28). -/
def LineSettings.countdownBound (l : LineSettings) : Nat :=
  match l.personality with
  | .off => 0
  | .polled => l.rv
  | .exception => l.g

/-- The ranges of section 2.3: an index 0..127, a station address 1..250, a countdown under the line's bound, r within N2
and above 0 only while the line sends or awaits a SWEEP to the outstation. -/
abbrev State.OutstationInRange (s : State) (o : Nat) (x : Outstation) : Prop :=
  o ≤ 127 ∧ 1 ≤ x.config.address ∧ x.config.address ≤ 250 ∧ (∀ a ∈ x.config.link, a < Config.assetCapacity)
    ∧ (∀ n ∈ x.lastHeard, n < 4294967296 * 60)
    ∧ ∀ k : Fin 4, lineOf o = k.val →
      x.countdown ≤ (s.line k).settings.countdownBound ∧ x.retry ≤ (s.line k).settings.n2
        ∧ (x.retry ≠ 0 → ∃ t ∈ (s.line k).transaction, t.outstation = o ∧ t.kind.isSweep = true)

/-- The baseline of a COUNT point or the held count of a placeholder. -/
def Point.countHeld : Point → Option Nat
  | .status _ _ => none
  | .count _ b => b
  | .pending _ n => n

/-- The ranges of chapter 3: an asset number, a 16-bit baseline or held count. -/
abbrev Point.InRange (p : Point) : Prop :=
  (∀ a ∈ p.namedAsset, a < Config.assetCapacity) ∧ ∀ n ∈ p.countHeld, n ≤ 65535

/-- The ranges of section 1.1 and of section 5.2: a weight 1..255, 16-bit counts, IDs 1..65535; a loop profile and the
window fields exactly for a LOOP (R2, R82; log 17). -/
abbrev Asset.InRange (x : Asset) : Prop :=
  1 ≤ x.config.weight ∧ x.config.weight ≤ 255 ∧ (∀ p ∈ x.config.parent, p < Config.assetCapacity)
    ∧ (x.config.loopProfile ≠ none ↔ x.config.kind = .loop) ∧ (x.window ≠ none ↔ x.config.kind = .loop)
    ∧ (∀ w ∈ x.window, w.count ≤ Config.counterBound ∧ ∀ n ∈ w.last, n ≤ Config.counterBound)
    ∧ (∀ z ∈ x.absorbedBy, z < Config.assetCapacity) ∧ ∀ id ∈ x.faultId, 1 ≤ id ∧ id ≤ 65535

/-- The ranges of section 4.1, with Topen at most Imax (R66). -/
abbrev FaultProfile.InRange (p : FaultProfile) : Prop :=
  1 ≤ p.up ∧ p.up ≤ 15 ∧ p.degrade ≤ 15 ∧ 1 ≤ p.down ∧ p.down ≤ 15 ∧ 1 ≤ p.ceiling ∧ p.ceiling ≤ 63
    ∧ 1 ≤ p.threshold ∧ p.threshold ≤ p.ceiling ∧ p.baseFail ≤ 4095 ∧ p.baseDegraded ≤ 4095 ∧ p.perAbsorbed ≤ 63
    ∧ p.perStep ≤ 255 ∧ p.interval ≤ 255

/-- The ranges of section 5.1: ascending band starts, each max at least its min (R80). -/
abbrev LoopProfile.InRange (p : LoopProfile) : Prop :=
  p.length ∈ [5, 10, 15, 20, 30, 60] ∧ 1 ≤ p.limit ∧ p.limit ≤ 4095 ∧ p.band0.start = 0
    ∧ p.band0.start < p.band1.start ∧ p.band1.start < p.band2.start ∧ p.band2.start < p.band3.start
    ∧ p.band3.start ≤ 1439 ∧ p.band0.min ≤ p.band0.max ∧ p.band1.min ≤ p.band1.max ∧ p.band2.min ≤ p.band2.max
    ∧ p.band3.min ≤ p.band3.max ∧ p.band0.max ≤ 65535 ∧ p.band1.max ≤ 65535 ∧ p.band2.max ≤ 65535
    ∧ p.band3.max ≤ 65535

/-- The ranges of R99 but for n: s 0..15, m 0..254, U 0..65535, a console 1..15 exactly for an ACKED record. -/
abbrev FaultRecord.InRange (r : FaultRecord) : Prop :=
  r.asset < Config.assetCapacity ∧ r.openedRun < 4294967296 ∧ (∀ d ∈ r.openedDay, d ≤ 1439) ∧ r.steps ≤ 15
    ∧ r.minutes ≤ 254 ∧ r.urgency ≤ 65535 ∧ (∀ c ∈ r.console, 1 ≤ c ∧ c ≤ 15)
    ∧ (r.state = .acked ↔ r.console ≠ none)

/-- The walk list, the walk in flight and the rebuild name asset numbers and fault IDs; a rebuild is in flight exactly
while ENTERING (R127, R129, R138, R175, R176). -/
abbrev State.WalksInRange (s : State) : Prop :=
  (∀ e ∈ s.walkList, e.root < Config.assetCapacity)
    ∧ (∀ w ∈ s.walk, w.root < Config.assetCapacity ∧ (∀ c ∈ w.cursor, c < Config.assetCapacity)
      ∧ ∀ id ∈ w.recorded, 1 ≤ id ∧ id ≤ 65535)
    ∧ (∀ b ∈ s.rebuild, ∀ v ∈ b.last, v < Config.assetCapacity) ∧ (s.rebuild ≠ none ↔ s.mode = .entering)

/-- The ranges of chapter 9; the calm count is 0 whenever the storm state is off, and there is storm in RUN alone
(R160, R165). -/
abbrev State.StormInRange (s : State) : Prop :=
  s.storm.entry ≤ 255 ∧ s.storm.exit ≤ 255 ∧ 1 ≤ s.storm.calmPeriod ∧ s.storm.calmPeriod ≤ 60 ∧ s.storm.calm ≤ 60
    ∧ s.storm.opens ≤ Config.counterBound ∧ (s.storm.on = false → s.storm.calm = 0)
    ∧ (s.storm.on = true → s.mode = .run)

/-- The argument's and the stretch count's range; an output that is on whenever source, count or latch asks for it; a
latch under LATCHED alone, which has no count (R166, R168, R169). -/
abbrev Beacon.InRange (b : Beacon) : Prop :=
  b.argument ≤ 65535 ∧ b.count ≤ 61 ∧ (b.value = true → b.output = true) ∧ (b.count ≠ 0 → b.output = true)
    ∧ (b.latch = true → b.output = true) ∧ (b.latch = true → b.stretch = .latched) ∧ (b.stretch = .latched → b.count = 0)

/-- Every entry of the keyed tables and of the waiting list lies within its range. -/
abbrev State.TablesInRange (s : State) : Prop :=
  (∀ e ∈ s.assets, e.1 < Config.assetCapacity ∧ e.2.InRange) ∧ (∀ e ∈ s.outstations, s.OutstationInRange e.1 e.2)
    ∧ (∀ e ∈ s.points, e.1 < 131072 ∧ e.2.InRange) ∧ (∀ e ∈ s.records, 1 ≤ e.1 ∧ e.1 ≤ 65535 ∧ e.2.InRange)
    ∧ ∀ a ∈ s.waiting, a < Config.assetCapacity

/-- Every field outside the keyed tables lies within its range; no block owes the work of two ticks (R172). -/
abbrev State.UnitsInRange (s : State) : Prop :=
  s.time.InRange ∧ s.owed.Nodup ∧ s.trunk.InRange ∧ (∀ k : Fin 4, (s.line k).InRange k) ∧ s.IdleLinesEmpty
    ∧ (∀ p : Fin 16, (s.faultProfile p).InRange) ∧ (∀ p : Fin 8, (s.loopProfile p).InRange) ∧ s.WalksInRange
    ∧ s.StormInRange ∧ (∀ b : Fin 4, (s.beacon b).InRange) ∧ s.drops ≤ Config.counterBound
    ∧ 1 ≤ s.nextId ∧ s.nextId ≤ 65535

/-- Every field of the part lies within its range, but for I and n, which have laws of their own. -/
abbrev State.InRange (s : State) : Prop := s.UnitsInRange ∧ s.TablesInRange

/-- Every asset's integrator lies within 0..Imax of its current fault profile (R70). -/
abbrev State.IntegratorsBounded (s : State) : Prop :=
  ∀ e ∈ s.assets, e.2.integrator ≤ (s.faultProfile e.2.config.faultProfile).ceiling

/-- Every asset's severity-bearing fields agree with its place in the fault table: an asset that holds a record is FAULTY,
named by that record with the same severity, and neither absorbed nor waiting; an asset that waits is FAULTY, on the
waiting list, and neither absorbed nor holding; and a FAULTY asset holds a record, is absorbed, or waits (R99, R101, R102,
R110). -/
abbrev State.AssetLaw (s : State) (a : Nat) (x : Asset) : Prop :=
  (∀ id ∈ x.faultId, x.absorbedBy = none ∧ x.waiting = false ∧
      ∃ r ∈ s.records.get? id, r.asset = a ∧ x.health = .faulty r.severity)
    ∧ (x.waiting = true → x.health ≠ .healthy ∧ x.absorbedBy = none ∧ x.faultId = none)
    ∧ (x.waiting = true ↔ a ∈ s.waiting)
    ∧ (x.health ≠ .healthy → x.faultId ≠ none ∨ x.absorbedBy ≠ none ∨ x.waiting = true)

/-- The fault table's law: at most 512 records, each under an ID 1..65535 that its asset's fault ID field names; a
waiting list without repeats, of present assets, that is empty while the table has room (R98, R101, R110, R111). -/
abbrev State.FaultLaw (s : State) : Prop :=
  s.records.length ≤ Config.recordCapacity
    ∧ (∀ e ∈ s.records, 1 ≤ e.1 ∧ e.1 ≤ 65535 ∧ ∃ x ∈ s.asset? e.2.asset, x.faultId = some e.1)
    ∧ (∀ e ∈ s.assets, s.AssetLaw e.1 e.2)
    ∧ s.waiting.Nodup ∧ (∀ a ∈ s.waiting, (s.asset? a).isSome = true)
    ∧ (s.waiting ≠ [] → s.records.length = Config.recordCapacity)
    ∧ 1 ≤ s.nextId ∧ s.nextId ≤ 65535

/-- Every record's U equals the urgency formula applied to its current inputs (R143). -/
abbrev State.UrgencyLaw (s : State) : Prop :=
  ∀ e ∈ s.records, ∀ x ∈ s.asset? e.2.asset,
    e.2.urgency = urgencyOf (s.faultProfile x.config.faultProfile) e.2.severity x.config.weight e.2.absorbed e.2.steps

/-! ## Correlation (chapter 7) -/

/-- The assets whose absorbed-by the correlation unit answers for: every present asset in RUN, those the rebuild has
visited while ENTERING, none in MAINTAIN (R124, R138). -/
def State.visited (s : State) : List Nat :=
  match s.mode, s.rebuild with
  | .run, _ => s.assets.map Prod.fst
  | .entering, some b =>
    match b.last with
    | some v => (s.forest.takeWhile fun x => x ≠ v) ++ [v]
    | none => []
  | _, _ => []

/-- An absorbed-by names an ancestor of its asset (R124). -/
abbrev State.AncestorLaw (s : State) : Prop := ∀ d ∈ s.visited, ∀ z ∈ s.absorbedByOf d, z ∈ s.ancestorsOf d

/-- Is the asset FAULTY with its absorbed-by naming `a` (R126)? -/
def State.countedBy (s : State) (a d : Nat) : Bool :=
  match s.asset? d with
  | some x => x.faulty && x.absorbedBy = some a
  | none => false

/-- Every n is the number of FAULTY assets whose absorbed-by names the record's asset, which ENTERING counts visit by
visit, and never above 2047 (R99, R106, R126, R138). In ENTERING the asset visited last is one of the tree, and every absorber
set so far holds a record. -/
abbrev State.CountLaw (s : State) : Prop :=
  s.AncestorLaw
    ∧ (s.mode ≠ .maintain → ∀ e ∈ s.records, e.2.absorbed = (s.visited.filter fun d => s.countedBy e.2.asset d).length)
    ∧ (∀ e ∈ s.records, e.2.absorbed < Config.assetCapacity)
    ∧ (s.mode = .entering → (∀ b ∈ s.rebuild, ∀ v ∈ b.last, v ∈ s.forest)
      ∧ ∀ d ∈ s.visited, ∀ z ∈ s.absorbedByOf d, s.faultIdOf z ≠ none)

/-- The assets a walk at the given cursor below `parent` has still to visit, in their order (R130). -/
def State.remaining (s : State) (parent : Nat) (cursor : List Nat) : List Nat :=
  match cursor with
  | [] => s.descendantsOf parent
  | c :: rest =>
    (if (s.childrenOf parent).contains c then s.remaining c rest else [])
      ++ ((s.childrenOf parent).filter fun x => c < x).flatMap fun x => x :: s.descendantsOf x

/-- An ABSORB walk of holder b will still visit d: it is on the walk list, or in flight for the record b holds and has not
reached d (R125, R131). -/
abbrev State.absorbPending (s : State) (b d : Nat) : Prop :=
  ⟨b, .absorb⟩ ∈ s.walkList
    ∨ ∃ w ∈ s.walk, w.root = b ∧ w.kind = .absorb ∧ w.recorded = s.faultIdOf b ∧ d ∈ s.remaining b w.cursor

/-- A RELEASE walk of an ancestor of d that holds no record will still visit d (R125, R133). -/
abbrev State.releasePending (s : State) (d : Nat) : Prop :=
  ∃ a ∈ s.ancestorsOf d, s.faultIdOf a = none
    ∧ (⟨a, .release⟩ ∈ s.walkList ∨ ∃ w ∈ s.walk, w.root = a ∧ w.kind = .release ∧ d ∈ s.remaining a w.cursor)

/-- How far the absorbed-by fields may lag behind the records (R125): for each holder above an asset, its ABSORB walk is
still to come or the asset names an absorber at or above that holder; and an absorber holds a record, unless a walk that
sets the field afresh is still to come. -/
abbrev State.AbsorptionLaw (s : State) : Prop :=
  s.AncestorLaw
    ∧ (∀ d ∈ s.visited, ∀ b ∈ s.ancestorsOf d, s.faultIdOf b ≠ none →
      s.absorbPending b d ∨ ∃ z ∈ s.absorbedByOf d, z = b ∨ z ∈ s.ancestorsOf b)
    ∧ ∀ d ∈ s.visited, ∀ z ∈ s.absorbedByOf d,
      s.faultIdOf z ≠ none ∨ s.releasePending d ∨ ∃ b ∈ s.ancestorsOf d, s.faultIdOf b ≠ none ∧ s.absorbPending b d

/-! ## Frames that are taken -/

/-- The part takes directives on the address: it is not held in reset, and the address is its own (R182, R191). -/
abbrev State.Takes (s : State) (addr : Byte) : Prop := s.resetHeld = false ∧ s.isOwn addr = true

end Sys2Proof.Machine
end

