-- ==== Sys2Proof/Certificates/Slice0/Obligations.lean ====
section
/-! DEFINITION. The statements for the provers: what each command does, whole, for every state that meets hypotheses on
the state and the operands alone, what it leaves alone, and the laws every step keeps. `State.reply` and `State.notify`
place one frame in the transmit queue (R187, R188), `State.settleBeacons` evaluates the beacons at the end of an event
(R167); neither touches anything else. -/

section
open Sys2Proof Sys2Proof.Machine

/-! ## Steps and frames -/

/-- A step takes the command at the front of the queue and runs it on the state with the rest of the queue waiting; on an
empty queue the part idles (log 1). -/
def Obligations.StepTakesFrontCommand : Prop :=
  (∀ (c : Instr) (rest : List Instr) (s : State), s.pending = c :: rest → step s = exec c { s with pending := rest })
    ∧ ∀ s : State, s.pending = [] → step s = .next s

/-- Every command answers a next state, whatever its operands and the state, and leaves the queue of commands alone: no
directive and no frame stops the part (R181, R184, R38). -/
def Obligations.EveryCommandAnswersNext : Prop :=
  ∀ (c : Instr) (s : State), ∃ t : State, exec c s = .next t ∧ t.pending = s.pending

/-- What the part does not take: nothing but POWER_ON and RESET_INPUT_ACTIVE acts while the reset input is held (log 4);
a frame on an address that is not recognised changes nothing (R182, R183); a kind that names no directive is answered
UNKNOWN-KIND (R184). RESET_INPUT_ACTIVE breaks off the frame in transmission (R191). -/
def Obligations.CommandsNotForThePart : Prop :=
  ∀ s : State,
    (∀ c : Instr, s.resetHeld = true → c ≠ .powerOn → c ≠ .resetInputActive → exec c s = .next s)
    ∧ exec .resetInputActive s = .next { s with resetHeld := true, trunk := { s.trunk with sending := none } }
    ∧ (∀ (c : Instr) (d : Directive), frameOf c = some d → s.isOwn d.addr = false →
        (d.addr = groupAddress → d.kind ∉ groupKinds) → exec c s = .next s)
    ∧ (∀ addr kind : Byte, exec (.trunkFrameIgnored addr kind) s = .next s)
    ∧ (∀ (addr kind : Byte) (req : Request), s.Takes addr →
        exec (.unknownKind addr kind req) s = .next (s.reply ⟨addr, req.tag⟩ .unknownKind []))

/-- The frame that bears a directive reads back as that directive, with every operand at every value the encoding admits,
and fits the trunk's length limit (R181, R186, R195, R196); a payload whose code is missing or names nothing reads back
as a row of its directive with the same effect (log 2). -/
def Obligations.DirectiveFramesReadBack : Prop :=
  ∀ (c : Instr) (d : Directive), c.wf = true → frameOf c = some d →
    d.payload.length ≤ 250
    ∧ (c.namesItsRow = true → directiveOf d.addr d.kind d.payload = c)
    ∧ ∀ s : State, exec (directiveOf d.addr d.kind d.payload) s = exec c s

/-- The trunk receiver (R181, R194): after any bytes without a start byte a whole frame is found, whatever follows it; a
length byte above 250 or a wrong check is a check failure, after which the hunt resumes behind the start byte. A check
failure raises the trunk check counter, up to 65535, and changes nothing else. -/
def Obligations.TrunkReceiverFindsFrames : Prop :=
  ∀ s : State,
    (∀ (noise payload rest : List Byte) (addr kind : Byte), startByte ∉ noise → payload.length ≤ 250 →
      s.trunkNext (noise ++ frameBytes addr kind payload ++ rest) = some (s.trunkCommand addr kind payload, rest))
    ∧ (∀ (noise rest : List Byte) (addr kind len : Byte), startByte ∉ noise → 250 < len.toNat →
      s.trunkNext (noise ++ startByte :: addr :: kind :: len :: rest)
        = some (.trunkCheckFail .lengthAbove250, addr :: kind :: len :: rest))
    ∧ (∀ (noise payload rest : List Byte) (addr kind hi lo : Byte), startByte ∉ noise → payload.length ≤ 250 →
      [hi, lo] ≠ beWord (crc16 (addr :: kind :: BitVec.ofNat 8 payload.length :: payload)) →
      s.trunkNext (noise ++ startByte :: addr :: kind :: BitVec.ofNat 8 payload.length :: payload ++ hi :: lo :: rest)
        = some (.trunkCheckFail .checkMismatch,
            addr :: kind :: BitVec.ofNat 8 payload.length :: payload ++ hi :: lo :: rest))
    ∧ (∀ cause : TrunkDiscard, s.resetHeld = false →
      exec (.trunkCheckFail cause) s
        = .next { s with trunk := { s.trunk with checkFails := min 65535 (s.trunk.checkFails + 1) } })

/-- Directives refused before their owner reads a field: LOAD, ERASE, ACK, CLOSE, DOWNLINK, RESYNC and MODE are answered
BUSY while the part is ENTERING, with no effect (R176, R186); a table id, selector, mode or restart code that is missing
or names nothing is answered BAD-ENTRY, and so is a STATUS without its option (R186, R121, R174, R178, R193). On
the group address a MODE while ENTERING, and a MODE or RESTART so refused, has no effect and gets no reply (R183). -/
def Obligations.EarlyRefusals : Prop :=
  (∀ (s : State) (req : CodedRequest), s.resetHeld = false → s.isOwn groupAddress = false →
    (s.mode = .entering ∨ req.named = false →
      exec (.modeRun groupAddress req) s = .next s ∧ exec (.modeMaintain groupAddress req) s = .next s)
    ∧ (req.named = false →
      exec (.restartRuntime groupAddress req) s = .next s ∧ exec (.restartFull groupAddress req) s = .next s))
  ∧ ∀ (s : State) (addr : Byte) (req : CodedRequest) (plain : Request) (opt : StatusRequest), s.Takes addr →
    (∀ c ∈ [Instr.partLoad addr req, .lineLoad addr req, .outstationLoad addr req, .assetLoad addr req,
        .pointLoad addr req, .faultProfileLoad addr req, .loopProfileLoad addr req, .stormLoad addr req,
        .beaconLoad addr req, .partErase addr req, .lineErase addr req, .outstationErase addr req,
        .assetErase addr req, .pointErase addr req, .faultProfileErase addr req, .loopProfileErase addr req,
        .stormErase addr req, .beaconErase addr req, .modeRun addr req, .modeMaintain addr req],
      (s.mode = .entering → exec c s = .next (s.reply ⟨addr, req.tag⟩ .busy []))
      ∧ (s.mode ≠ .entering → req.named = false → exec c s = .next (s.reply ⟨addr, req.tag⟩ .badEntry [])))
    ∧ (s.mode = .entering → ∀ c ∈ [Instr.ack addr plain, .close addr plain, .downlink addr plain, .resync addr plain],
      exec c s = .next (s.reply ⟨addr, plain.tag⟩ .busy []))
    ∧ (req.named = false → ∀ c ∈ [Instr.partRead addr req, .lineRead addr req, .outstationRead addr req,
        .assetRead addr req, .pointRead addr req, .faultProfileRead addr req, .loopProfileRead addr req,
        .stormRead addr req, .beaconRead addr req, .faultById addr req, .faultByAsset addr req,
        .restartRuntime addr req, .restartFull addr req],
      exec c s = .next (s.reply ⟨addr, req.tag⟩ .badEntry []))
    ∧ (opt.named = false → ∀ c ∈ [Instr.status addr opt, .statusClear addr opt],
      exec c s = .next (s.reply ⟨addr, opt.tag⟩ .badEntry []))

/-! ## Tables: READ -/

/-- READ of the nine tables, served in every mode: the key is checked (a missing byte BAD-ENTRY, a value out of range
BAD-INDEX), and the reply DONE carries the entry in its layout, with the encodings of an absent record (R15, R43, R44,
R64, R68, R81, R159, R170, R180, R197). Nothing but the reply changes. The two bytes of an absent last-window or point
count are free values (log 8). A point key whose outstation index is above 127 is BAD-INDEX even where its code bytes are
missing, and one that ends inside its code is BAD-ENTRY (log 14). The poll position shows the present station address of
its outstation (log 18). -/
def Obligations.ReadsReportEntries : Prop :=
  ∀ (s : State) (addr tag : Byte) (fs : List Byte), s.Takes addr →
    (exec (.partRead addr (.coded tag fs)) s = .next (
      if fs.length < 1 then s.reply ⟨addr, tag⟩ .badEntry []
      else if byteAt fs 0 ≠ 0 then s.reply ⟨addr, tag⟩ .badIndex []
      else s.reply ⟨addr, tag⟩ .done [s.trunk.node, s.trunk.alternate.getD 0xFF]))
    ∧ (exec (.stormRead addr (.coded tag fs)) s = .next (
      if fs.length < 1 then s.reply ⟨addr, tag⟩ .badEntry []
      else if byteAt fs 0 ≠ 0 then s.reply ⟨addr, tag⟩ .badIndex []
      else s.reply ⟨addr, tag⟩ .done
        (be8 s.storm.entry ++ be8 s.storm.exit ++ be8 s.storm.calmPeriod ++ beFlag s.storm.on ++ be8 s.storm.calm
          ++ be16 s.storm.opens)))
    ∧ (∀ c ∈ [Instr.partRead addr (.coded tag []), .lineRead addr (.coded tag []), .outstationRead addr (.coded tag []),
        .assetRead addr (.coded tag []), .pointRead addr (.coded tag []), .faultProfileRead addr (.coded tag []),
        .loopProfileRead addr (.coded tag []), .stormRead addr (.coded tag []), .beaconRead addr (.coded tag [])],
      exec c s = .next (s.reply ⟨addr, tag⟩ .badEntry []))
    ∧ (∀ key : Byte,
      exec (.lineRead addr (.coded tag (key :: fs))) s = .next (
        if h : 1 ≤ key.toNat ∧ key.toNat ≤ 4 then
          s.reply ⟨addr, tag⟩ .done (s.lineBytes ⟨key.toNat - 1, by omega⟩)
        else s.reply ⟨addr, tag⟩ .badIndex [])
      ∧ exec (.outstationRead addr (.coded tag (key :: fs))) s = .next (
        if key.toNat ≤ 127 then s.reply ⟨addr, tag⟩ .done (s.outstationBytes key.toNat)
        else s.reply ⟨addr, tag⟩ .badIndex [])
      ∧ exec (.faultProfileRead addr (.coded tag (key :: fs))) s = .next (
        if h : key.toNat < 16 then
          let p := s.faultProfile ⟨key.toNat, h⟩
          s.reply ⟨addr, tag⟩ .done (be8 p.up ++ be8 p.degrade ++ be8 p.down ++ be8 p.ceiling ++ be8 p.threshold
            ++ be16 p.baseFail ++ be16 p.baseDegraded ++ be8 p.perAbsorbed ++ be8 p.perStep ++ be8 p.interval)
        else s.reply ⟨addr, tag⟩ .badIndex [])
      ∧ exec (.loopProfileRead addr (.coded tag (key :: fs))) s = .next (
        if h : key.toNat < 8 then
          let p := s.loopProfile ⟨key.toNat, h⟩
          s.reply ⟨addr, tag⟩ .done (be8 p.length ++ be16 p.limit
            ++ [p.band0, p.band1, p.band2, p.band3].flatMap fun b => be16 b.start ++ be16 b.min ++ be16 b.max)
        else s.reply ⟨addr, tag⟩ .badIndex [])
      ∧ exec (.beaconRead addr (.coded tag (key :: fs))) s = .next (
        if h : 1 ≤ key.toNat ∧ key.toNat ≤ 4 then
          let b := s.beacon ⟨key.toNat - 1, by omega⟩
          s.reply ⟨addr, tag⟩ .done (be8 b.source.code ++ be16 b.argument ++ be8 b.stretch.code ++ beFlag b.value
            ++ beFlag b.output ++ be8 b.count ++ beFlag b.latch)
        else s.reply ⟨addr, tag⟩ .badIndex [])
      ∧ exec (.assetRead addr (.coded tag [key])) s = .next (s.reply ⟨addr, tag⟩ .badEntry [])
      ∧ ∀ lo : Byte, exec (.assetRead addr (.coded tag (key :: lo :: fs))) s = .next (
        if 256 * key.toNat + lo.toNat ≤ 2047 then
          s.reply ⟨addr, tag⟩ .done (s.assetBytes (256 * key.toNat + lo.toNat))
        else s.reply ⟨addr, tag⟩ .badIndex []))
    ∧ (∀ o hi lo : Byte, o.toNat ≤ 127 →
      exec (.pointRead addr (.coded tag [o])) s = .next (s.reply ⟨addr, tag⟩ .badEntry [])
      ∧ exec (.pointRead addr (.coded tag [o, hi])) s = .next (s.reply ⟨addr, tag⟩ .badEntry [])
      ∧ exec (.pointRead addr (.coded tag (o :: hi :: lo :: fs))) s = .next (
        if 256 * hi.toNat + lo.toNat ≤ 1023 then
          s.reply ⟨addr, tag⟩ .done (s.pointBytes (1024 * o.toNat + (256 * hi.toNat + lo.toNat)))
        else s.reply ⟨addr, tag⟩ .badIndex []))
    ∧ (∀ o : Byte, 127 < o.toNat →
      exec (.pointRead addr (.coded tag (o :: fs))) s = .next (s.reply ⟨addr, tag⟩ .badIndex []))
    ∧ (∀ k : Fin 4, s.lineBytes k =
      be8 (s.line k).settings.personality.code ++ be8 (s.line k).settings.t1 ++ be8 (s.line k).settings.n2
        ++ be8 (s.line k).settings.rv ++ be16 (s.line k).settings.g ++ be8 (s.line k).settings.fmax
        ++ be8 (s.lineState k).code
        ++ (match s.awaitedOn k with
          | some t => be8 t.outstation ++ be8 t.kind.code
          | none => [0xFF, 0])
        ++ be8 (s.line k).queue.length
        ++ be8 ((((s.line k).pollPosition.bind s.outstation?).map fun x => x.config.address).getD 0)
        ++ be16 (s.line k).counters.good ++ be16 (s.line k).counters.checkErrors ++ be16 (s.line k).counters.overlong
        ++ be16 (s.line k).counters.unknownStation ++ be16 (s.line k).counters.strays
        ++ be16 (s.line k).counters.timeouts)
    ∧ (∀ o : Nat, s.outstationBytes o = match s.outstation? o with
      | none => 0 :: List.replicate 14 0xFF
      | some x =>
        be8 1 ++ be8 x.config.address ++ be8 x.config.policy.code ++ be16Absent x.config.link ++ be8 x.comms.code
          ++ be8 x.retry
          ++ (match x.lastHeard with
            | some n => be32 (n % 4294967296)
            | none => be32 0xFFFFFFFF)
          ++ be16 x.countdown ++ beFlag x.fullDue
          ++ be8 x.comms.linkCondition.code)
    ∧ (∀ a : Nat, s.assetBytes a = match s.asset? a with
      | none => 0 :: List.replicate 20 0xFF
      | some x =>
        be8 1 ++ be8 x.config.kind.code ++ be16Absent x.config.parent ++ be8 x.config.weight
          ++ be8 x.config.faultProfile.val ++ be8 ((x.config.loopProfile.map fun p => p.val).getD 0xFF)
          ++ be8 x.integrator
          ++ (match x.health with
            | .healthy => [0, 0xFF]
            | .faulty severity => [1, BitVec.ofNat 8 severity.code])
          ++ be16Absent x.absorbedBy ++ be16 (x.faultId.getD 0) ++ beFlag x.waiting
          ++ (match x.window with
            | none => [0, 0, 0, 0, 0, 0]
            | some w =>
              be8 (128 + (if w.gap then 1 else 0) + (if w.last.isSome then 2 else 0)) ++ be16 w.count
                ++ (match w.last with
                  | some n => be16 n
                  | none => beWord (Config.absentLastWindow a))
                ++ be8 w.result.code))
    ∧ ∀ key : Nat,
      let countBytes (n : Option Nat) : List Byte :=
        match n with
        | some v => 1 :: be16 v
        | none => 0 :: beWord (Config.absentPointCount key)
      s.pointBytes key = match s.points.get? key with
      | none => [0, 0xFF, 0xFF, 0xFF, 0xFF, 0, 0xFF, 0xFF]
      | some (.status a c) => be8 1 ++ be16 a ++ be8 0 ++ be8 c.code ++ countBytes none
      | some (.count a b) => be8 1 ++ be16 a ++ [1, 0xFF] ++ countBytes b
      | some (.pending c n) => [2, 0xFF, 0xFF, 0xFF] ++ be8 c.code ++ countBytes n

/-! ## Tables: LOAD and ERASE -/

/-- PART and STORM edits (R180, R159): the checks in their order and the effect. A PART LOAD's reply carries the address
it arrived on; a STORM edit leaves storm state, calm count and opens-this-minute. -/
def Obligations.PartAndStormEdits : Prop :=
  ∀ (s : State) (addr tag : Byte) (fs : List Byte), s.Takes addr → s.mode ≠ .entering →
    exec (.partLoad addr (.coded tag fs)) s = .next (
      if fs.length < 1 then s.reply ⟨addr, tag⟩ .badEntry []
      else if byteAt fs 0 ≠ 0 then s.reply ⟨addr, tag⟩ .badIndex []
      else if fs.length < 3 then s.reply ⟨addr, tag⟩ .badEntry []
      else if ¬(1 ≤ byteAt fs 1 ∧ byteAt fs 1 ≤ 253) then s.reply ⟨addr, tag⟩ .badEntry []
      else if byteAt fs 2 ≠ 0xFF ∧ ¬(1 ≤ byteAt fs 2 ∧ byteAt fs 2 ≤ 253) then s.reply ⟨addr, tag⟩ .badEntry []
      else if byteAt fs 2 = byteAt fs 1 then s.reply ⟨addr, tag⟩ .conflict []
      else if s.mode ≠ .maintain then s.reply ⟨addr, tag⟩ .badMode []
      else
        ({ s with trunk := { s.trunk with
            node := fs.getD 1 0, alternate := if byteAt fs 2 = 0xFF then none else some (fs.getD 2 0) } } : State).reply
          ⟨addr, tag⟩ .done [])
    ∧ exec (.partErase addr (.coded tag fs)) s = .next (
      if fs.length < 1 then s.reply ⟨addr, tag⟩ .badEntry []
      else if byteAt fs 0 ≠ 0 then s.reply ⟨addr, tag⟩ .badIndex []
      else if s.mode ≠ .maintain then s.reply ⟨addr, tag⟩ .badMode []
      else ({ s with trunk := { s.trunk with node := 1, alternate := none } } : State).reply ⟨addr, tag⟩ .done [])
    ∧ exec (.stormLoad addr (.coded tag fs)) s = .next (
      if fs.length < 1 then s.reply ⟨addr, tag⟩ .badEntry []
      else if byteAt fs 0 ≠ 0 then s.reply ⟨addr, tag⟩ .badIndex []
      else if fs.length < 4 then s.reply ⟨addr, tag⟩ .badEntry []
      else if ¬(1 ≤ byteAt fs 3 ∧ byteAt fs 3 ≤ 60) then s.reply ⟨addr, tag⟩ .badEntry []
      else
        ({ s with storm := { s.storm with
            entry := byteAt fs 1, exit := byteAt fs 2, calmPeriod := byteAt fs 3 } } : State).reply ⟨addr, tag⟩ .done [])
    ∧ exec (.stormErase addr (.coded tag fs)) s = .next (
      if fs.length < 1 then s.reply ⟨addr, tag⟩ .badEntry []
      else if byteAt fs 0 ≠ 0 then s.reply ⟨addr, tag⟩ .badIndex []
      else
        ({ s with storm := { s.storm with entry := 0, exit := 0, calmPeriod := 10 } } : State).reply ⟨addr, tag⟩ .done [])

/-- LINE edits (R18): the checks in their order, the clamping of section 2.1, the outstations renewed under a changed
personality and their countdowns bounded by a lowered Rv or G of the line's own personality. An ERASE is a LOAD of the
power-on values. -/
def Obligations.LineEdits : Prop :=
  ∀ (s : State) (addr tag : Byte) (fs : List Byte), s.Takes addr → s.mode ≠ .entering →
    let stored (k : Fin 4) (new : LineSettings) : State :=
      ({ s with
        lines := s.lines.set k.val { s.line k with settings := new } k.isLt,
        outstations := s.outstations.mapAll fun o x =>
          if o / 32 ≠ k.val then x
          else if (s.line k).settings.personality ≠ new.personality then
            { x with
              comms := .new, retry := 0, lastHeard := none, countdown := 0, fullDue := true, integrityDue := false }
          else if new.personality = .polled ∧ new.rv < (s.line k).settings.rv then
            { x with countdown := min x.countdown new.rv }
          else if new.personality = .exception ∧ new.g < (s.line k).settings.g then
            { x with countdown := min x.countdown new.g }
          else x } : State).settleBeacons
    (∀ c ∈ [Instr.lineLoad addr (.coded tag fs), .lineErase addr (.coded tag fs)],
      (fs.length < 1 → exec c s = .next (s.reply ⟨addr, tag⟩ .badEntry []))
      ∧ (1 ≤ fs.length → ¬(1 ≤ byteAt fs 0 ∧ byteAt fs 0 ≤ 4) → exec c s = .next (s.reply ⟨addr, tag⟩ .badIndex [])))
    ∧ ∀ k : Fin 4, 1 ≤ fs.length → byteAt fs 0 = k.val + 1 →
      exec (.lineErase addr (.coded tag fs)) s = .next (
        if s.mode ≠ .maintain then s.reply ⟨addr, tag⟩ .badMode []
        else (stored k { personality := .off, t1 := 50, n2 := 2, rv := 4, g := 300, fmax := 128 }).reply ⟨addr, tag⟩ .done [])
      ∧ (fs.length < 8 ∨ 2 < byteAt fs 1 →
        exec (.lineLoad addr (.coded tag fs)) s = .next (s.reply ⟨addr, tag⟩ .badEntry []))
      ∧ ∀ p : Personality, 8 ≤ fs.length → byteAt fs 1 = p.code →
        exec (.lineLoad addr (.coded tag fs)) s = .next (
          if s.mode ≠ .maintain then s.reply ⟨addr, tag⟩ .badMode []
          else (stored k {
            personality := p, t1 := max 1 (byteAt fs 2), n2 := min 7 (byteAt fs 3), rv := max 1 (min 15 (byteAt fs 4)),
            g := max 10 (min 3600 (wordAt fs 5)), fmax := max 16 (byteAt fs 7) }).reply ⟨addr, tag⟩ .done [])

/-- OUTSTATION edits (R21 to R23): the checks in their order; a new outstation, and one whose station address changes,
starts NEW with full-due set; an ERASE takes the outstation's PENDING points with it and is refused while a RESOLVED
point has its index. -/
def Obligations.OutstationEdits : Prop :=
  ∀ (s : State) (addr tag key : Byte) (fs : List Byte), s.Takes addr → s.mode ≠ .entering →
    (∀ c ∈ [Instr.outstationLoad addr (.coded tag []), .outstationErase addr (.coded tag [])],
      exec c s = .next (s.reply ⟨addr, tag⟩ .badEntry []))
    ∧ (127 < key.toNat → ∀ c ∈ [Instr.outstationLoad addr (.coded tag (key :: fs)),
        .outstationErase addr (.coded tag (key :: fs))], exec c s = .next (s.reply ⟨addr, tag⟩ .badIndex []))
    ∧ (key.toNat ≤ 127 → exec (.outstationErase addr (.coded tag (key :: fs))) s = .next (
        if s.mode ≠ .maintain then s.reply ⟨addr, tag⟩ .badMode []
        else if s.outstation? key.toNat = none then s.reply ⟨addr, tag⟩ .done []
        else if ∃ e ∈ s.points, e.1 / 1024 = key.toNat ∧ e.2.resolved = true then s.reply ⟨addr, tag⟩ .conflict []
        else
          ({ s with
            points := s.points.filter fun e => ¬(e.1 / 1024 = key.toNat ∧ e.2.resolved = false),
            outstations := s.outstations.del key.toNat } : State).settleBeacons.reply ⟨addr, tag⟩ .done []))
    ∧ (key.toNat ≤ 127 → fs.length < 4 →
      exec (.outstationLoad addr (.coded tag (key :: fs))) s = .next (s.reply ⟨addr, tag⟩ .badEntry []))
    ∧ ∀ station policy hi lo : Byte, key.toNat ≤ 127 →
      (¬(1 ≤ station.toNat ∧ station.toNat ≤ 250) ∨ 2 < policy.toNat →
        exec (.outstationLoad addr (.coded tag (key :: station :: policy :: hi :: lo :: fs))) s
          = .next (s.reply ⟨addr, tag⟩ .badEntry []))
      ∧ ∀ (p : RelayPolicy) (link : Option Nat), 1 ≤ station.toNat → station.toNat ≤ 250 → policy.toNat = p.code →
        link = (if 256 * hi.toNat + lo.toNat = 0xFFFF then none else some (256 * hi.toNat + lo.toNat)) →
        exec (.outstationLoad addr (.coded tag (key :: station :: policy :: hi :: lo :: fs))) s = .next (
          if ∃ a ∈ link, (s.asset? a).map (fun x => x.config.kind) ≠ some .cabinet then s.reply ⟨addr, tag⟩ .badEntry []
          else if s.mode ≠ .maintain then s.reply ⟨addr, tag⟩ .badMode []
          else if ∃ e ∈ s.outstations, e.1 ≠ key.toNat ∧ e.1 / 32 = key.toNat / 32 ∧ e.2.config.address = station.toNat then
            s.reply ⟨addr, tag⟩ .conflict []
          else
            ({ s with outstations := s.outstations.put key.toNat (match s.outstation? key.toNat with
                | some x =>
                  if x.config.address = station.toNat then { x with config := ⟨station.toNat, p, link⟩ }
                  else ⟨⟨station.toNat, p, link⟩, .new, 0, none, 0, true, false⟩
                | none => ⟨⟨station.toNat, p, link⟩, .new, 0, none, 0, true, false⟩) } : State).settleBeacons.reply
              ⟨addr, tag⟩ .done [])

/-- The checks of an ASSET LOAD in their order (R3 to R5, R8, R9), each refusal with its code and no other change; a LOAD
that fails none is taken. -/
def Obligations.AssetLoadChecks : Prop :=
  ∀ (s : State) (addr tag hi lo kind phi plo w fp lp : Byte) (fs : List Byte) (a p : Nat), s.Takes addr →
    s.mode ≠ .entering → a = 256 * hi.toNat + lo.toNat → p = 256 * phi.toNat + plo.toNat →
    exec (.assetLoad addr (.coded tag [])) s = .next (s.reply ⟨addr, tag⟩ .badEntry [])
    ∧ exec (.assetLoad addr (.coded tag [hi])) s = .next (s.reply ⟨addr, tag⟩ .badEntry [])
    ∧ (2047 < a → exec (.assetLoad addr (.coded tag (hi :: lo :: fs))) s = .next (s.reply ⟨addr, tag⟩ .badIndex []))
    ∧ (a ≤ 2047 → fs.length < 6 →
      exec (.assetLoad addr (.coded tag (hi :: lo :: fs))) s = .next (s.reply ⟨addr, tag⟩ .badEntry []))
    ∧ (a ≤ 2047 →
      (5 < kind.toNat ∨ 15 < fp.toNat ∨ (p ≠ 0xFFFF ∧ 2047 < p) ∨ (kind = 4 ∧ 7 < lp.toNat) ∨ (kind ≠ 4 ∧ lp ≠ 0xFF)) →
      exec (.assetLoad addr (.coded tag (hi :: lo :: kind :: phi :: plo :: w :: fp :: lp :: fs))) s
        = .next (s.reply ⟨addr, tag⟩ .badEntry []))
    ∧ ∀ config : AssetConfig, a ≤ 2047 → kind.toNat = config.kind.code → fp.toNat = config.faultProfile.val →
      config.parent = (if p = 0xFFFF then none else some p) → (p ≤ 2047 ∨ p = 0xFFFF) →
      config.weight = max 1 w.toNat → config.loopProfile.map Fin.val = (if lp = 0xFF then none else some lp.toNat) →
      (config.kind = .loop ↔ config.loopProfile ≠ none) →
      exec (.assetLoad addr (.coded tag (hi :: lo :: kind :: phi :: plo :: w :: fp :: lp :: fs))) s = .next (
        if ∃ q ∈ config.parent, s.asset? q = none then s.reply ⟨addr, tag⟩ .badEntry []
        else if s.mode = .run ∧ ∃ x ∈ s.asset? a, x.config.kind ≠ config.kind ∨ x.config.parent ≠ config.parent then
          s.reply ⟨addr, tag⟩ .badMode []
        else if ∃ q ∈ config.parent, s.parentOf a ≠ some q ∧
            (q = a ∨ q ∈ s.descendantsOf a ∨ 6 < s.depthOf q + s.heightOf a) then s.reply ⟨addr, tag⟩ .conflict []
        else if ∃ x ∈ s.asset? a, x.config.kind ≠ config.kind ∧
            ((config.kind ≠ .cabinet ∧ ∃ e ∈ s.outstations, e.2.config.link = some a)
              ∨ (config.kind ≠ .loop ∧ ∃ e ∈ s.points, e.2.countAsset = some a)) then s.reply ⟨addr, tag⟩ .conflict []
        else (s.storeAsset a config).reply ⟨addr, tag⟩ .done [])

/-- An ASSET LOAD that creates an asset (R7, R11): HEALTHY with I 0, no record and no wait, a fresh window for a LOOP; in
RUN its absorbed-by is taken from its parent. Nothing else changes. -/
def Obligations.AssetLoadCreates : Prop :=
  ∀ (s : State) (a : Nat) (config : AssetConfig), s.asset? a = none →
    s.storeAsset a config = { s with
      assets := s.assets.put a {
        config := config,
        integrator := 0,
        health := .healthy,
        absorbedBy :=
          if s.mode = .run then config.parent.bind fun p =>
            match s.absorbedByOf p with
            | some z => some z
            | none => if s.faultIdOf p = none then none else some p
          else none,
        faultId := none,
        waiting := false,
        window := if config.kind = .loop then some { count := 0, gap := true, last := none, result := .unknown } else none } }

/-- An ASSET LOAD that is taken on a present asset (R7, R9, R10, R145, R167): the configuration is replaced, I is
clamped to the Imax of a changed profile, a window is discarded, made, or given its gap flag; the record the asset
holds, if any, has its urgency recomputed under the new weight and profile, with change-due set when it differs, and the
beacons follow the change. Nothing else changes. A LOAD of the fields already held changes nothing. -/
def Obligations.AssetLoadReplaces : Prop :=
  ∀ (s : State) (a : Nat) (config : AssetConfig) (x : Asset), s.Canonical → s.FaultLaw → s.UrgencyLaw →
    s.asset? a = some x → (x.window ≠ none ↔ x.config.kind = .loop) →
    (s.mode = .maintain ∨ x.config.kind = config.kind ∧ x.config.parent = config.parent) →
    let replaced : State :=
      { s with
        assets := s.assets.put a { x with
          config := config,
          integrator :=
            if s.mode = .maintain ∨ x.config.faultProfile ≠ config.faultProfile then
              min x.integrator (s.faultProfile config.faultProfile).ceiling
            else x.integrator,
          window :=
            if config.kind ≠ .loop then none
            else if x.config.kind ≠ .loop then some { count := 0, gap := true, last := none, result := .unknown }
            else if x.config.loopProfile ≠ config.loopProfile then x.window.map fun w => { w with gap := true }
            else x.window },
        records := s.records.mapAll fun id r =>
          let u := urgencyOf (s.faultProfile config.faultProfile) r.severity config.weight r.absorbed r.steps
          if x.faultId ≠ some id ∨ u = r.urgency then r else { r with urgency := u, changeDue := true } }
    s.storeAsset a config = (
      if x.config.weight = config.weight ∧ x.config.faultProfile = config.faultProfile then replaced
      else replaced.settleBeacons)
    ∧ (x.config = config → s.IntegratorsBounded → s.storeAsset a config = s)

/-- ASSET ERASE (R12): an absent asset is DONE without change; a present one is refused while a child, a RESOLVED point,
a link, a record, a wait, or in RUN its fault or a walk rooted at it stands against it; else the record goes. -/
def Obligations.AssetErases : Prop :=
  ∀ (s : State) (addr tag hi lo : Byte) (fs : List Byte) (a : Nat), s.Takes addr → s.mode ≠ .entering →
    a = 256 * hi.toNat + lo.toNat →
    exec (.assetErase addr (.coded tag [])) s = .next (s.reply ⟨addr, tag⟩ .badEntry [])
    ∧ exec (.assetErase addr (.coded tag [hi])) s = .next (s.reply ⟨addr, tag⟩ .badEntry [])
    ∧ exec (.assetErase addr (.coded tag (hi :: lo :: fs))) s = .next (
      if 2047 < a then s.reply ⟨addr, tag⟩ .badIndex []
      else if s.asset? a = none then s.reply ⟨addr, tag⟩ .done []
      else if (∃ e ∈ s.assets, e.2.config.parent = some a)
          ∨ (∃ e ∈ s.points, e.2.namedAsset = some a)
          ∨ (∃ e ∈ s.outstations, e.2.config.link = some a)
          ∨ (∃ x ∈ s.asset? a, x.faultId ≠ none ∨ x.waiting = true ∨ (s.mode = .run ∧ x.health ≠ .healthy))
          ∨ (s.mode = .run ∧ ((∃ e ∈ s.walkList, e.root = a) ∨ ∃ w ∈ s.walk, w.root = a)) then
        s.reply ⟨addr, tag⟩ .conflict []
      else ({ s with assets := s.assets.del a } : State).reply ⟨addr, tag⟩ .done [])

/-- POINT edits (R53 to R57): the checks in their order; a LOAD creates a RESOLVED entry, takes over what a placeholder
held, or resets what a RESOLVED entry reported; an ERASE removes an entry of either status. No asset is sampled. An
outstation index above 127 is BAD-INDEX even in a short payload, and a key that ends inside its code is BAD-ENTRY (log
14). -/
def Obligations.PointEdits : Prop :=
  ∀ (s : State) (addr tag o chi clo ahi alo role : Byte) (fs : List Byte) (key code a : Nat), s.Takes addr →
    s.mode ≠ .entering → code = 256 * chi.toNat + clo.toNat → a = 256 * ahi.toNat + alo.toNat →
    key = 1024 * o.toNat + code →
    (∀ c ∈ [Instr.pointLoad addr (.coded tag []), .pointErase addr (.coded tag [])],
      exec c s = .next (s.reply ⟨addr, tag⟩ .badEntry []))
    ∧ (127 < o.toNat ∨ 2 ≤ fs.length ∧ 1023 < wordAt fs 0 →
      ∀ c ∈ [Instr.pointLoad addr (.coded tag (o :: fs)), .pointErase addr (.coded tag (o :: fs))],
        exec c s = .next (s.reply ⟨addr, tag⟩ .badIndex []))
    ∧ (o.toNat ≤ 127 → fs.length < 2 →
      ∀ c ∈ [Instr.pointLoad addr (.coded tag (o :: fs)), .pointErase addr (.coded tag (o :: fs))],
        exec c s = .next (s.reply ⟨addr, tag⟩ .badEntry []))
    ∧ (o.toNat ≤ 127 → code ≤ 1023 →
      exec (.pointErase addr (.coded tag (o :: chi :: clo :: fs))) s
        = .next (({ s with points := s.points.del key } : State).reply ⟨addr, tag⟩ .done [])
      ∧ (fs.length < 3 → exec (.pointLoad addr (.coded tag (o :: chi :: clo :: fs))) s
        = .next (s.reply ⟨addr, tag⟩ .badEntry []))
      ∧ exec (.pointLoad addr (.coded tag (o :: chi :: clo :: ahi :: alo :: role :: fs))) s = .next (
        if 1 < role.toNat ∨ 2047 < a then s.reply ⟨addr, tag⟩ .badEntry []
        else if s.outstation? o.toNat = none ∨ s.asset? a = none then s.reply ⟨addr, tag⟩ .badEntry []
        else if role = 1 ∧ (s.asset? a).map (fun x => x.config.kind) ≠ some .loop then s.reply ⟨addr, tag⟩ .badEntry []
        else if s.points.get? key = none ∧ 4096 ≤ s.points.length then s.reply ⟨addr, tag⟩ .full []
        else
          ({ s with points := s.points.put key (match s.points.get? key with
              | some (.pending c n) => if role = 1 then .count a n else .status a c
              | _ => if role = 1 then .count a none else .status a .unknown) } : State).reply ⟨addr, tag⟩ .done []))

/-- FAULT-PROFILE edits (R66, R67): the checks in their order; Topen is stored as at most Imax; I of every asset naming
the profile is clamped to Imax, and every record whose asset names it has its urgency recomputed, with change-due set
when it differs. An ERASE stores the power-on values with the same effects. -/
def Obligations.FaultProfileEdits : Prop :=
  ∀ (s : State) (addr tag : Byte) (fs : List Byte), s.Takes addr → s.mode ≠ .entering →
    let stored (p : Fin 16) (new : FaultProfile) : State :=
      ({ s with
        faultProfiles := s.faultProfiles.set p.val new p.isLt,
        assets := s.assets.mapAll fun _ x =>
          if x.config.faultProfile = p then { x with integrator := min x.integrator new.ceiling } else x,
        records := s.records.mapAll fun _ r =>
          match s.asset? r.asset with
          | some x =>
            if x.config.faultProfile = p ∧ urgencyOf new r.severity x.config.weight r.absorbed r.steps ≠ r.urgency then
              { r with urgency := urgencyOf new r.severity x.config.weight r.absorbed r.steps, changeDue := true }
            else r
          | none => r } : State).settleBeacons
    (∀ c ∈ [Instr.faultProfileLoad addr (.coded tag fs), .faultProfileErase addr (.coded tag fs)],
      (fs.length < 1 → exec c s = .next (s.reply ⟨addr, tag⟩ .badEntry []))
      ∧ (1 ≤ fs.length → 15 < byteAt fs 0 → exec c s = .next (s.reply ⟨addr, tag⟩ .badIndex [])))
    ∧ ∀ p : Fin 16, 1 ≤ fs.length → byteAt fs 0 = p.val →
      exec (.faultProfileErase addr (.coded tag fs)) s = .next (
        if s.mode ≠ .maintain then s.reply ⟨addr, tag⟩ .badMode []
        else (stored p {
          up := 4, degrade := 1, down := 1, ceiling := 12, threshold := 8, baseFail := 1024, baseDegraded := 256,
          perAbsorbed := 16, perStep := 32, interval := 0 }).reply ⟨addr, tag⟩ .done [])
      ∧ exec (.faultProfileLoad addr (.coded tag fs)) s = .next (
        if fs.length < 13 then s.reply ⟨addr, tag⟩ .badEntry []
        else if byteAt fs 1 < 1 ∨ 15 < byteAt fs 1 ∨ 15 < byteAt fs 2 ∨ byteAt fs 3 < 1 ∨ 15 < byteAt fs 3
            ∨ byteAt fs 4 < 1 ∨ 63 < byteAt fs 4 ∨ byteAt fs 5 < 1 ∨ 63 < byteAt fs 5 ∨ 4095 < wordAt fs 6
            ∨ 4095 < wordAt fs 8 ∨ 63 < byteAt fs 10 then s.reply ⟨addr, tag⟩ .badEntry []
        else if s.mode ≠ .maintain then s.reply ⟨addr, tag⟩ .badMode []
        else (stored p {
          up := byteAt fs 1, degrade := byteAt fs 2, down := byteAt fs 3, ceiling := byteAt fs 4,
          threshold := min (byteAt fs 5) (byteAt fs 4), baseFail := wordAt fs 6, baseDegraded := wordAt fs 8,
          perAbsorbed := byteAt fs 10, perStep := byteAt fs 11, interval := byteAt fs 12 }).reply ⟨addr, tag⟩ .done [])

/-- LOOP-PROFILE edits (R80, R81): the checks in their order; the gap flag of every LOOP naming the profile is set, and
its counts and result are left. An ERASE stores the power-on values with the same effects. -/
def Obligations.LoopProfileEdits : Prop :=
  ∀ (s : State) (addr tag : Byte) (fs : List Byte), s.Takes addr → s.mode ≠ .entering →
    let stored (p : Fin 8) (new : LoopProfile) : State :=
      { s with
        loopProfiles := s.loopProfiles.set p.val new p.isLt,
        assets := s.assets.mapAll fun _ x =>
          if x.config.loopProfile = some p then { x with window := x.window.map fun w => { w with gap := true } } else x }
    let band (i : Nat) : Band := ⟨wordAt fs i, wordAt fs (i + 2), wordAt fs (i + 4)⟩
    (∀ c ∈ [Instr.loopProfileLoad addr (.coded tag fs), .loopProfileErase addr (.coded tag fs)],
      (fs.length < 1 → exec c s = .next (s.reply ⟨addr, tag⟩ .badEntry []))
      ∧ (1 ≤ fs.length → 7 < byteAt fs 0 → exec c s = .next (s.reply ⟨addr, tag⟩ .badIndex [])))
    ∧ ∀ p : Fin 8, 1 ≤ fs.length → byteAt fs 0 = p.val →
      exec (.loopProfileErase addr (.coded tag fs)) s = .next (
        if s.mode ≠ .maintain then s.reply ⟨addr, tag⟩ .badMode []
        else (stored p {
          length := 15, limit := 600, band0 := ⟨0, 0, 65535⟩, band1 := ⟨360, 0, 65535⟩,
          band2 := ⟨720, 0, 65535⟩, band3 := ⟨1080, 0, 65535⟩ }).reply ⟨addr, tag⟩ .done [])
      ∧ exec (.loopProfileLoad addr (.coded tag fs)) s = .next (
        if fs.length < 28 then s.reply ⟨addr, tag⟩ .badEntry []
        else if byteAt fs 1 ∉ [5, 10, 15, 20, 30, 60] ∨ wordAt fs 2 < 1 ∨ 4095 < wordAt fs 2 then
          s.reply ⟨addr, tag⟩ .badEntry []
        else if ¬((band 4).start = 0 ∧ (band 4).start < (band 10).start ∧ (band 10).start < (band 16).start
            ∧ (band 16).start < (band 22).start ∧ (band 22).start ≤ 1439) then s.reply ⟨addr, tag⟩ .badEntry []
        else if (band 4).max < (band 4).min ∨ (band 10).max < (band 10).min ∨ (band 16).max < (band 16).min
            ∨ (band 22).max < (band 22).min then s.reply ⟨addr, tag⟩ .badEntry []
        else if s.mode ≠ .maintain then s.reply ⟨addr, tag⟩ .badMode []
        else (stored p {
          length := byteAt fs 1, limit := wordAt fs 2, band0 := band 4, band1 := band 10, band2 := band 16,
          band3 := band 22 }).reply ⟨addr, tag⟩ .done [])

/-- BEACON edits and BEACON-RESET (R166, R169): the checks in their order; a LOAD starts the beacon afresh under its new
source, an ERASE as a LOAD of OFF, 0 and NONE; a reset of a LATCHED beacon turns its output off unless the source is
true, and of any other changes nothing. BEACON-RESET is taken in ENTERING too. -/
def Obligations.BeaconEdits : Prop :=
  ∀ (s : State) (addr tag : Byte) (fs : List Byte), s.Takes addr →
    let stored (b : Fin 4) (x : Beacon) : State := { s with beacons := s.beacons.set b.val x b.isLt }
    let loaded (source : BeaconSource) (argument : Nat) (stretch : Stretch) : Beacon :=
      { source := source, argument := argument, stretch := stretch, value := s.sourceValue source argument,
        output := s.sourceValue source argument,
        count := if s.sourceValue source argument then (stretch.seconds.map (· + 1)).getD 0 else 0,
        latch := s.sourceValue source argument && stretch = .latched }
    (∀ b : Fin 4, 1 ≤ fs.length → byteAt fs 0 = b.val + 1 →
      exec (.beaconReset addr (.tagged tag fs)) s = .next ((
        if (s.beacon b).stretch = .latched then
          stored b { s.beacon b with
            latch := (s.beacon b).value, output := (s.beacon b).value && (s.beacon b).output }
        else s).reply ⟨addr, tag⟩ .done [])
      ∧ (s.mode ≠ .entering → exec (.beaconErase addr (.coded tag fs)) s
        = .next ((stored b (loaded .off 0 .unstretched)).reply ⟨addr, tag⟩ .done []))
      ∧ (s.mode ≠ .entering →
        (fs.length < 5 ∨ 6 < byteAt fs 1 ∨ 7 < byteAt fs 4
          ∨ (byteAt fs 1 = 6 ∧ ¬(1 ≤ wordAt fs 2 ∧ wordAt fs 2 ≤ 4))) →
        exec (.beaconLoad addr (.coded tag fs)) s = .next (s.reply ⟨addr, tag⟩ .badEntry []))
      ∧ ∀ (source : BeaconSource) (stretch : Stretch), s.mode ≠ .entering → 5 ≤ fs.length →
        byteAt fs 1 = source.code → byteAt fs 4 = stretch.code →
        (source = .lineSilent → 1 ≤ wordAt fs 2 ∧ wordAt fs 2 ≤ 4) →
        exec (.beaconLoad addr (.coded tag fs)) s
          = .next ((stored b (loaded source (wordAt fs 2) stretch)).reply ⟨addr, tag⟩ .done []))
    ∧ (fs.length < 1 → exec (.beaconReset addr (.tagged tag fs)) s = .next (s.reply ⟨addr, tag⟩ .badEntry [])
      ∧ (s.mode ≠ .entering → ∀ c ∈ [Instr.beaconLoad addr (.coded tag fs), .beaconErase addr (.coded tag fs)],
        exec c s = .next (s.reply ⟨addr, tag⟩ .badEntry [])))
    ∧ (1 ≤ fs.length → ¬(1 ≤ byteAt fs 0 ∧ byteAt fs 0 ≤ 4) →
      exec (.beaconReset addr (.tagged tag fs)) s = .next (s.reply ⟨addr, tag⟩ .badIndex [])
      ∧ (s.mode ≠ .entering → ∀ c ∈ [Instr.beaconLoad addr (.coded tag fs), .beaconErase addr (.coded tag fs)],
        exec c s = .next (s.reply ⟨addr, tag⟩ .badIndex [])))
    ∧ exec (.beaconReset addr .empty) s = .next (s.reply ⟨addr, 0⟩ .badEntry [])

/-! ## Beacons -/

/-- A beacon under its source value (R167 to R169), the source values themselves, the evaluation of all four at the end
of an event, and the law that every command leaves each beacon's value equal to its source: unchanged while the value
holds; on, with T + 1 loaded or the latch set, when the source becomes true with the output off; off when it becomes
false with no count and no latch. -/
def Obligations.BeaconsFollowSources : Prop :=
  ∀ (s : State) (argument : Nat),
    (∀ b : Fin 4, (s.beacon b).InRange →
      (s.beacon b).settle (s.beacon b).value = s.beacon b
      ∧ ((s.beacon b).value = false → (s.beacon b).output = true →
        (s.beacon b).settle true = { s.beacon b with value := true })
      ∧ ((s.beacon b).value = false → (s.beacon b).output = false →
        (s.beacon b).settle true = { s.beacon b with
          value := true, output := true, count := ((s.beacon b).stretch.seconds.map (· + 1)).getD 0,
          latch := (s.beacon b).stretch = .latched })
      ∧ ((s.beacon b).value = true →
        (s.beacon b).settle false = { s.beacon b with
          value := false, output := (s.beacon b).latch || (s.beacon b).count ≠ 0 }))
    ∧ (s.sourceValue .off argument = false ∧ s.sourceValue .on argument = true
      ∧ (s.sourceValue .headUrgency argument = true ↔ ∃ e ∈ s.records, argument ≤ e.2.urgency)
      ∧ (s.sourceValue .anyOpen argument = true ↔ ∃ e ∈ s.records, e.2.state = .opened)
      ∧ (s.sourceValue .storm argument = true ↔ s.storm.on = true)
      ∧ (s.sourceValue .tableFull argument = true ↔ s.waiting ≠ [])
      ∧ (s.sourceValue .lineSilent argument = true
          ↔ ∃ e ∈ s.outstations, e.1 / 32 + 1 = argument ∧ e.2.comms = .silent))
    ∧ (s.settleBeacons = { s with beacons := s.settleBeacons.beacons }
      ∧ ∀ b : Fin 4, s.settleBeacons.beacon b
        = (s.beacon b).settle (s.sourceValue (s.beacon b).source (s.beacon b).argument))
    ∧ ((∀ b : Fin 4, (s.beacon b).value = s.sourceValue (s.beacon b).source (s.beacon b).argument) →
      ∀ (c : Instr) (t : State), exec c s = .next t →
        ∀ b : Fin 4, (t.beacon b).value = t.sourceValue (t.beacon b).source (t.beacon b).argument)

/-! ## Fault records -/

/-- LIST and FAULT (R2, R121, R151, R197): their checks; a LIST gives the summaries of the records at the ranks asked
for, in rank order, at most 8 of them, behind their number; FAULT by ID and by asset gives a record's fields in full
with its rank, or NO-SUCH. A summary has 13 bytes, and the asset's kind is not among them (log 27). Nothing but the
reply changes. -/
def Obligations.ListReportsRanks : Prop :=
  ∀ (s : State) (addr tag : Byte) (fs : List Byte), s.Takes addr →
    let listed := (s.dispatchQueue.drop (wordAt fs 0 - 1)).take (min (byteAt fs 2) 8)
    let summary (id : Nat) (r : FaultRecord) : List Byte :=
      be16 id ++ be16 r.asset ++ be8 r.severity.code ++ be8 r.state.code ++ be16 r.urgency ++ be16 r.absorbed
        ++ be8 r.steps ++ be16Absent r.openedDay
    let report (id : Nat) : State :=
      match s.records.get? id with
      | none => s.reply ⟨addr, tag⟩ .noSuch []
      | some r => s.reply ⟨addr, tag⟩ .done (
          summary id r ++ be32 r.openedRun ++ be8 r.minutes ++ be8 (r.console.getD 0) ++ beFlag r.changeDue
            ++ be16 (s.rankOf id))
    exec (.list addr .empty) s = .next (s.reply ⟨addr, 0⟩ .badEntry [])
    ∧ exec (.list addr (.tagged tag fs)) s = .next (
      if fs.length < 3 then s.reply ⟨addr, tag⟩ .badEntry []
      else if wordAt fs 0 < 1 then s.reply ⟨addr, tag⟩ .badIndex []
      else if byteAt fs 2 < 1 then s.reply ⟨addr, tag⟩ .badEntry []
      else s.reply ⟨addr, tag⟩ .done (be8 listed.length ++ listed.flatMap fun e => summary e.1 e.2))
    ∧ exec (.faultById addr (.coded tag fs)) s = .next (
      if fs.length < 2 then s.reply ⟨addr, tag⟩ .badEntry [] else report (wordAt fs 0))
    ∧ exec (.faultByAsset addr (.coded tag fs)) s = .next (
      if fs.length < 2 then s.reply ⟨addr, tag⟩ .badEntry []
      else if 2047 < wordAt fs 0 then s.reply ⟨addr, tag⟩ .badIndex []
      else match s.faultIdOf (wordAt fs 0) with
        | none => s.reply ⟨addr, tag⟩ .noSuch []
        | some id => report id)

/-- The dispatch queue (R149): every record once, U descending, then opened run-minute ascending, then fault ID ascending,
and each record at its rank. -/
def Obligations.DispatchQueueOrdered : Prop :=
  ∀ s : State, s.Canonical →
    s.dispatchQueue.Perm s.records
    ∧ s.dispatchQueue.Pairwise (fun e e' =>
      e'.2.urgency < e.2.urgency
        ∨ e.2.urgency = e'.2.urgency
          ∧ (e.2.openedRun < e'.2.openedRun ∨ e.2.openedRun = e'.2.openedRun ∧ e.1 < e'.1))
    ∧ ∀ e ∈ s.records, 1 ≤ s.rankOf e.1 ∧ s.rankOf e.1 ≤ s.records.length
        ∧ s.dispatchQueue[s.rankOf e.1 - 1]? = some e

/-- Every step keeps n of every record equal to the number of FAULTY assets whose absorbed-by names the record's asset, in
RUN over all assets and in ENTERING over those the rebuild has visited, and at most 2047; and every absorbed-by naming
an ancestor (R99, R124, R126, R106, R104, R108, R132, R134, R135, R138). -/
def Obligations.CountLawKept : Prop :=
  ∀ s t : State, s.Canonical → s.InRange → s.TreeLaw → s.FaultLaw → s.CountLaw → step s = .next t → t.CountLaw

/-- ACK (R114 to R116, R156): its checks; an OPEN record becomes ACKED under the console, its CHANGED notice is sent at
once with its change-due flag cleared, and the reply follows; an ACK of an ACKED record is answered DONE and changes
nothing. -/
def Obligations.AckAcknowledges : Prop :=
  ∀ (s : State) (addr tag : Byte) (fs : List Byte), s.Takes addr → s.mode ≠ .entering →
    exec (.ack addr .empty) s = .next (s.reply ⟨addr, 0⟩ .badEntry [])
    ∧ exec (.ack addr (.tagged tag fs)) s = .next (
      if fs.length < 3 then s.reply ⟨addr, tag⟩ .badEntry []
      else if ¬(1 ≤ byteAt fs 2 ∧ byteAt fs 2 ≤ 15) then s.reply ⟨addr, tag⟩ .badEntry []
      else match s.records.get? (wordAt fs 0) with
        | none => s.reply ⟨addr, tag⟩ .noSuch []
        | some r =>
          if r.state = .acked then s.reply ⟨addr, tag⟩ .done []
          else
            ({ s with
              records := s.records.adjust (wordAt fs 0) fun r =>
                { r with state := .acked, console := some (byteAt fs 2), changeDue := false },
              trunk := s.trunk.place ⟨s.trunk.node, .notice (.changed (
                { r with state := .acked }.summary (wordAt fs 0)))⟩ } : State).settleBeacons.reply ⟨addr, tag⟩ .done [])

/-- CLOSE (R117, R118, R74): its checks; the asset is reset to HEALTHY with I 0, the record discarded with its CLEARED
notice marked manual, a RELEASE queued when the asset has a child, the waiting list served, and DONE sent last. -/
def Obligations.CloseRemovesRecord : Prop :=
  ∀ (s : State) (addr tag : Byte) (fs : List Byte), s.Takes addr → s.mode ≠ .entering →
    exec (.close addr .empty) s = .next (s.reply ⟨addr, 0⟩ .badEntry [])
    ∧ exec (.close addr (.tagged tag fs)) s = .next (
      if fs.length < 2 then s.reply ⟨addr, tag⟩ .badEntry []
      else if s.mode ≠ .run then s.reply ⟨addr, tag⟩ .badMode []
      else match s.records.get? (wordAt fs 0) with
        | none => s.reply ⟨addr, tag⟩ .noSuch []
        | some r =>
          ({ s with
            assets := s.assets.adjust r.asset fun x => { x with integrator := 0, health := .healthy, faultId := none },
            records := s.records.del (wordAt fs 0),
            trunk := s.trunk.place ⟨s.trunk.node, .notice (.cleared (wordAt fs 0) r.asset true)⟩,
            walkList :=
              if s.childrenOf r.asset = [] then s.walkList
              else queueEntry s.walkList r.asset .release } : State).serveWaiting.settleBeacons.reply ⟨addr, tag⟩ .done [])

/-! ## Time, modes and restarts -/

/-- TIME (R173, R92, R183): refused BAD-ENTRY when short or out of range; taken, it first runs the clock on by a minute
tick with every block's minute work when its second lies below the held one, then sets second and day-minute and the gap
flag of every LOOP, and answers DONE last. Work of an earlier tick that is still owed is done before all this (log 5).
On the group address it is taken alike without a reply. The minute work is that of the ranker, the loop supervisor and
the storm monitor, one after another in an order that is a free value (log 7); a payload without a byte is refused with
tag 0. -/
def Obligations.TimeSetsClock : Prop :=
  ∀ (s : State) (addr tag : Byte) (fs : List Byte), s.resetHeld = false → s.isOwn addr = true ∨ addr = groupAddress →
    let answered (t : State) (code : ReplyCode) : State := if s.isOwn addr then t.reply ⟨addr, tag⟩ code [] else t
    let set (t : State) : State :=
      { t with
        time := { t.time with second := byteAt fs 2, dayMinute := some (wordAt fs 0) },
        assets := t.assets.mapAll fun _ x => { x with window := x.window.map fun w => { w with gap := true } } }
    exec (.time addr .empty) s = .next (if s.isOwn addr then s.reply ⟨addr, 0⟩ .badEntry [] else s)
    ∧ (fs.length < 3 ∨ 1439 < wordAt fs 0 ∨ 59 < byteAt fs 2 →
      exec (.time addr (.tagged tag fs)) s = .next (answered s .badEntry))
    ∧ (3 ≤ fs.length → wordAt fs 0 ≤ 1439 → byteAt fs 2 ≤ 59 →
      exec (.time addr (.tagged tag fs)) s = exec (.time addr (.tagged tag fs)) s.finishOwed)
    ∧ (3 ≤ fs.length → wordAt fs 0 ≤ 1439 → byteAt fs 2 ≤ 59 → s.owed = [] →
      (s.time.second ≤ byteAt fs 2 → exec (.time addr (.tagged tag fs)) s = .next (answered (set s) .done))
      ∧ (byteAt fs 2 < s.time.second → ∃ blocks : List (State → State),
        blocks.Perm [State.rankerMinute, State.closeWindows, State.stormMinute]
        ∧ exec (.time addr (.tagged tag fs)) s = .next (answered (set (
          { blocks.foldl (fun u block => block u) { s with time := {
              second := 0, runMinute := (s.time.runMinute + 1) % 4294967296,
              dayMinute := s.time.dayMinute.map fun d => (d + 1) % 1440 } } with
            freeCount := s.freeCount + 1 } : State).settleBeacons) .done)))

/-- MODE RUN (R174 to R176, R137, R183): DONE without change in RUN. In MAINTAIN the part becomes ENTERING: full-due and
gap flags set, walk and walk list dropped, every n set to 0 with U recomputed, and the reply owed; with no present asset
it enters RUN within the event, its lines at the start of a cycle, and answers DONE at once. On the group address no
reply is owed. Work of a tick taken in MAINTAIN that is still owed is done there, before the event (log 5). -/
def Obligations.ModeRunBegins : Prop :=
  ∀ (s : State) (addr tag : Byte) (fs : List Byte), s.resetHeld = false → s.isOwn addr = true ∨ addr = groupAddress →
    let answered (t : State) (code : ReplyCode) : State := if s.isOwn addr then t.reply ⟨addr, tag⟩ code [] else t
    let prepared : State :=
      { s with
        outstations := s.outstations.mapAll fun _ x => { x with fullDue := true },
        assets := s.assets.mapAll fun _ x => { x with window := x.window.map fun w => { w with gap := true } },
        walk := none,
        walkList := [],
        storm := { s.storm with on := false, calm := 0 },
        records := s.records.mapAll fun _ r => s.refreshed { r with absorbed := 0 } }
    (s.mode = .entering → exec (.modeRun addr (.coded tag fs)) s = .next (answered s .busy))
    ∧ (s.mode = .run → exec (.modeRun addr (.coded tag fs)) s = .next (answered s .done))
    ∧ (s.mode = .maintain → exec (.modeRun addr (.coded tag fs)) s = exec (.modeRun addr (.coded tag fs)) s.finishOwed)
    ∧ (s.mode = .maintain → s.owed = [] → s.roots ≠ [] → exec (.modeRun addr (.coded tag fs)) s = .next
      ({ prepared with
        mode := .entering,
        rebuild := some { last := none, owed := if s.isOwn addr then some ⟨addr, tag⟩ else none } } : State).settleBeacons)
    ∧ (s.mode = .maintain → s.owed = [] → s.assets = [] → exec (.modeRun addr (.coded tag fs)) s = .next (answered
      ({ prepared with
        mode := .run,
        rebuild := none,
        lines := s.lines.map fun l =>
          if l.settings.personality = .off then l else { l with pollPosition := none, previous := none } } :
        State).settleBeacons .done))

/-- MODE MAINTAIN (R174, R177, R37, R41, R165, R183): DONE without change in MAINTAIN. In RUN each POLLED or EXCEPTION
line drops its transaction, its queue and the bytes of a frame still being received, LU1 to LU4, with REPLY ABORTED for
an ORDER in hand and then for each queued entry, oldest first; the dropped outstation's r becomes 0; a storm ends with
its notice; the MODE's own DONE follows. Work of a tick taken in RUN that is still owed is done there, before the event
(log 5). -/
def Obligations.ModeMaintainLeavesRun : Prop :=
  ∀ (s : State) (addr tag : Byte) (fs : List Byte), s.resetHeld = false → s.isOwn addr = true ∨ addr = groupAddress →
    let answer (code : ReplyCode) : List TrunkFrame := if s.isOwn addr then [⟨addr, .reply tag code []⟩] else []
    let aborted (e : Downlink) : TrunkFrame := ⟨e.addr, .reply e.tag .aborted []⟩
    let running (k : Fin 4) : Bool := (s.line k).settings.personality ≠ .off
    let abortedOn (k : Fin 4) : List TrunkFrame :=
      if running k then
        (match (s.line k).transaction with
          | some t =>
            match t.kind with
            | .order e => [aborted e]
            | _ => []
          | none => []) ++ (s.line k).queue.map aborted
      else []
    (s.mode = .entering → exec (.modeMaintain addr (.coded tag fs)) s
      = .next { s with trunk := (answer .busy).foldl Trunk.place s.trunk })
    ∧ (s.mode = .maintain → exec (.modeMaintain addr (.coded tag fs)) s
      = .next { s with trunk := (answer .done).foldl Trunk.place s.trunk })
    ∧ (s.mode = .run → exec (.modeMaintain addr (.coded tag fs)) s
      = exec (.modeMaintain addr (.coded tag fs)) s.finishOwed)
    ∧ (s.mode = .run → s.owed = [] → exec (.modeMaintain addr (.coded tag fs)) s = .next
      ({ s with
        mode := .maintain,
        lines := s.lines.map fun l =>
          if l.settings.personality = .off then l else { l with transaction := none, queue := [], received := [] },
        outstations := s.outstations.mapAll fun o x =>
          if ∃ k : Fin 4, running k = true ∧ (s.line k).transaction.map (fun t => t.outstation) = some o then
            { x with retry := 0 }
          else x,
        storm := { s.storm with on := false, calm := 0, opens := 0 },
        trunk := (abortedOn 0 ++ abortedOn 1 ++ abortedOn 2 ++ abortedOn 3
          ++ (if s.storm.on then [(⟨s.trunk.node, .notice (.storm false .maintain 0)⟩ : TrunkFrame)] else [])
          ++ answer .done).foldl Trunk.place s.trunk } : State).settleBeacons)

/-- RESTART RUNTIME (R178, R179 and R14, R20, R42, R46, R94, R123, R128, R160, R170, R191): what the part was told is
kept, what it learned is cleared, the mode is kept but for ENTERING, and one START notice stands in the emptied queue; a
frame in transmission completes without its slot. No reply. Work of a tick that is still owed is dropped, and the bytes
of a field frame still being received are kept (logs 5, 20). -/
def Obligations.RestartRuntimeKeepsTables : Prop :=
  ∀ (s : State) (addr tag : Byte) (fs : List Byte), s.resetHeld = false → s.isOwn addr = true ∨ addr = groupAddress →
    let mode : Mode := if s.mode = .run then .run else .maintain
    let left : State :=
      { s with
        mode := mode,
        owed := [],
        assets := s.assets.mapAll fun _ x =>
          { x with
            integrator := 0, health := .healthy, absorbedBy := none, faultId := none, waiting := false,
            window :=
              if x.config.kind = .loop then some { count := 0, gap := true, last := none, result := .unknown }
              else none },
        outstations := s.outstations.mapAll fun _ x =>
          { x with
              comms := .new, retry := 0, lastHeard := none, countdown := 0, fullDue := true, integrityDue := false },
        lines := s.lines.map fun l =>
          { l with
            transaction := none, pollPosition := none, previous := none, queue := [],
            counters := {
              good := 0, checkErrors := 0, overlong := 0, unknownStation := 0, strays := 0, timeouts := 0 } },
        points := Table.mapAll (s.points.filter fun e => e.2.resolved) fun _ p =>
          match p with
          | .status a _ => .status a .unknown
          | .count a _ => .count a none
          | .pending c n => .pending c n,
        drops := 0,
        records := [],
        nextId := 1,
        waiting := [],
        walkList := [],
        walk := none,
        rebuild := none,
        storm := { s.storm with on := false, calm := 0, opens := 0 },
        trunk := { s.trunk with
          waiting := [⟨s.trunk.node, .notice (.start .runtime mode)⟩],
          sending := s.trunk.sending.map fun x => { x with slot := false },
          lost := false,
          checkFails := 0 } }
    exec (.restartRuntime addr (.coded tag fs)) s = .next
      { left with
        beacons := s.beacons.map fun b =>
          { b with
            value := b.source = .on, output := b.source = .on, latch := b.source = .on && b.stretch = .latched,
            count := if b.source = .on then (b.stretch.seconds.map (· + 1)).getD 0 else 0 } }

/-- POWER_ON from any state, and RESTART FULL (R178 to R180, R191): every block at its power-on values, one START notice
in the queue; RESTART FULL keeps the part addresses, and lets a frame in transmission complete without its slot. No
reply. The model's own count of free values is kept (log 7). -/
def Obligations.PowerOnAndRestartFull : Prop :=
  ∀ (s : State) (addr tag : Byte) (fs : List Byte),
    exec .powerOn s = .next { State.reset with freeCount := s.freeCount, pending := s.pending }
    ∧ (s.resetHeld = false → s.isOwn addr = true ∨ addr = groupAddress →
      exec (.restartFull addr (.coded tag fs)) s = .next
        { State.reset with
          trunk := {
            node := s.trunk.node,
            alternate := s.trunk.alternate,
            waiting := [⟨s.trunk.node, .notice (.start .full .maintain)⟩],
            sending := s.trunk.sending.map fun x => { x with slot := false },
            lost := false,
            checkFails := 0 },
          freeCount := s.freeCount,
          pending := s.pending })

/-- What power-on leaves (R178, R179 and the power-on columns of sections 2.1, 4.1, 5.1, 9.1 and 9.4), and that it meets
every law the steps keep. -/
def Obligations.ResetIsSound : Prop :=
  State.reset.mode = .maintain
    ∧ State.reset.time = { second := 0, runMinute := 0, dayMinute := none }
    ∧ State.reset.owed = [] ∧ State.reset.assets = [] ∧ State.reset.outstations = [] ∧ State.reset.points = []
    ∧ State.reset.drops = 0
    ∧ (∀ k : Fin 4, State.reset.line k = {
        settings := { personality := .off, t1 := 50, n2 := 2, rv := 4, g := 300, fmax := 128 },
        transaction := none, pollPosition := none, previous := none, queue := [],
        counters := { good := 0, checkErrors := 0, overlong := 0, unknownStation := 0, strays := 0, timeouts := 0 },
        received := [] })
    ∧ (∀ p : Fin 16, State.reset.faultProfile p = {
        up := 4, degrade := 1, down := 1, ceiling := 12, threshold := 8, baseFail := 1024, baseDegraded := 256,
        perAbsorbed := 16, perStep := 32, interval := 0 })
    ∧ (∀ p : Fin 8, State.reset.loopProfile p = {
        length := 15, limit := 600, band0 := ⟨0, 0, 65535⟩, band1 := ⟨360, 0, 65535⟩, band2 := ⟨720, 0, 65535⟩,
        band3 := ⟨1080, 0, 65535⟩ })
    ∧ State.reset.records = [] ∧ State.reset.nextId = 1 ∧ State.reset.waiting = []
    ∧ State.reset.walkList = [] ∧ State.reset.walk = none ∧ State.reset.rebuild = none
    ∧ State.reset.storm = { entry := 0, exit := 0, calmPeriod := 10, on := false, calm := 0, opens := 0 }
    ∧ (∀ b : Fin 4, State.reset.beacon b = {
        source := .off, argument := 0, stretch := .unstretched, value := false, output := false, count := 0,
        latch := false })
    ∧ State.reset.trunk = {
        node := 1, alternate := none, waiting := [⟨1, .notice (.start .powerOn .maintain)⟩], sending := none,
        lost := false, checkFails := 0 }
    ∧ State.reset.TablesSound ∧ State.reset.InRange ∧ State.reset.IntegratorsBounded ∧ State.reset.FaultLaw
    ∧ State.reset.UrgencyLaw ∧ State.reset.TreeLaw ∧ State.reset.CountLaw ∧ State.reset.AbsorptionLaw

/-! ## The trunk unit -/

/-- DOWNLINK and RESYNC (R35): the checks in their order; a DOWNLINK joins the tail of its line's queue with its tag and
arrival address, and no reply is sent yet; a RESYNC sets full-due. -/
def Obligations.DownlinkAndResync : Prop :=
  ∀ (s : State) (addr tag o : Byte) (payload : List Byte) (k : Fin 4), s.Takes addr → s.mode ≠ .entering →
    (∀ c ∈ [Instr.downlink addr (.tagged tag []), .resync addr (.tagged tag [])],
      exec c s = .next (s.reply ⟨addr, tag⟩ .badEntry []))
    ∧ (∀ c ∈ [Instr.downlink addr .empty, .resync addr .empty], exec c s = .next (s.reply ⟨addr, 0⟩ .badEntry []))
    ∧ (127 < o.toNat → ∀ c ∈ [Instr.downlink addr (.tagged tag (o :: payload)), .resync addr (.tagged tag (o :: payload))],
        exec c s = .next (s.reply ⟨addr, tag⟩ .badIndex []))
    ∧ (o.toNat ≤ 127 → exec (.resync addr (.tagged tag (o :: payload))) s = .next (
      if s.outstation? o.toNat = none then s.reply ⟨addr, tag⟩ .badEntry []
      else
        ({ s with outstations := s.outstations.adjust o.toNat fun x => { x with fullDue := true } } : State).reply
          ⟨addr, tag⟩ .done []))
    ∧ (o.toNat / 32 = k.val → exec (.downlink addr (.tagged tag (o :: payload))) s = .next (
      if payload.length < 1 ∨ 48 < payload.length then s.reply ⟨addr, tag⟩ .badEntry []
      else if s.outstation? o.toNat = none then s.reply ⟨addr, tag⟩ .badEntry []
      else if (s.line k).settings.personality = .off then s.reply ⟨addr, tag⟩ .badEntry []
      else if s.mode ≠ .run then s.reply ⟨addr, tag⟩ .badMode []
      else if 4 ≤ (s.line k).queue.length then s.reply ⟨addr, tag⟩ .full []
      else
        { s with
          lines := s.lines.set k.val
            { s.line k with
              queue := (s.line k).queue ++ [{ outstation := o.toNat, payload := payload, tag := tag, addr := addr }] }
            k.isLt }))

/-- STATUS and STATUS_CLEAR (R193, R198): the 82 bytes of the report, the counters as they stand; with the clear option
the line counters, the drop counter and the trunk check counter are then 0, and nothing else is cleared. -/
def Obligations.StatusReports : Prop :=
  ∀ (s : State) (addr tag : Byte), s.Takes addr →
    let counters (k : Fin 4) : List Byte :=
      be16 (s.line k).counters.good ++ be16 (s.line k).counters.checkErrors ++ be16 (s.line k).counters.overlong
        ++ be16 (s.line k).counters.unknownStation ++ be16 (s.line k).counters.strays
        ++ be16 (s.line k).counters.timeouts
    let data : List Byte :=
      be8 s.mode.code ++ be8 s.time.second ++ be32 s.time.runMinute ++ be16Absent s.time.dayMinute
        ++ beFlag s.time.dayMinute.isSome ++ beFlag s.storm.on ++ be8 s.storm.calm ++ be16 s.storm.opens
        ++ be16 s.records.length ++ be16 (s.records.filter fun e => e.2.state = .opened).length ++ be16 s.waiting.length
        ++ be16 s.walkList.length
        ++ (match s.rebuild, s.walk with
          | some b, _ => be8 3 ++ be16Absent b.last
          | none, some w => be8 w.kind.code ++ be16 w.root
          | none, none => be8 0 ++ be16 0xFFFF)
        ++ be16 s.points.length ++ be16 (s.points.filter fun e => !e.2.resolved).length ++ be8 s.trunk.occupancy
        ++ beFlag s.trunk.lost ++ be16 s.trunk.checkFails ++ counters 0 ++ counters 1 ++ counters 2 ++ counters 3
        ++ be16 s.drops
    data.length = 82
    ∧ exec (.status addr (.given tag)) s = .next (s.reply ⟨addr, tag⟩ .done data)
    ∧ exec (.statusClear addr (.given tag)) s = .next
      (({ s with
        lines := s.lines.map fun l =>
          { l with counters := {
              good := 0, checkErrors := 0, overlong := 0, unknownStation := 0, strays := 0, timeouts := 0 } },
        drops := 0,
        trunk := { s.trunk with checkFails := 0 } } : State).reply ⟨addr, tag⟩ .done data)

/-- The transmitter (R188, R190, R195, R196): idle, it begins the oldest waiting frame, whose header takes the lost flag
and the storm state of that moment, the START of a restart no exception (log 29), and the lost flag is cleared;
otherwise nothing begins (log 16). A completion frees the slot and begins nothing itself: the next beginning is a
command of its own (log 21). The bytes of each frame the part sends are those of the frame tables: replies and the nine
notices on the trunk, SWEEP and ORDER on a field line while the frame is being sent. A summary has no byte for the
asset's kind (log 27). -/
def Obligations.TransmitterStampsHeader : Prop :=
  ∀ (s : State) (f : TrunkFrame) (rest : List TrunkFrame), s.resetHeld = false →
    (s.trunk.sending = none → s.trunk.waiting = f :: rest →
      exec .transmitBegin s = .next { s with
        trunk := { s.trunk with
          waiting := rest,
          sending := some { frame := f, lost := s.trunk.lost, storm := s.storm.on, slot := true },
          lost := false } })
    ∧ (s.trunk.sending ≠ none ∨ s.trunk.waiting = [] → exec .transmitBegin s = .next s)
    ∧ exec .transmitComplete s = .next { s with trunk := { s.trunk with sending := none } }
    ∧ (∀ x : Transmission, x.bytes = frameBytes x.frame.addr x.frame.body.kind (
        BitVec.ofNat 8 ((if x.lost then 1 else 0) + (if x.storm then 2 else 0)) :: x.frame.body.bytes))
    ∧ (let sent (b : FrameBody) (kind : Byte) (bytes : List Byte) : Prop := b.kind = kind ∧ b.bytes = bytes
      let notice (n : Notice) (kind : Byte) (bytes : List Byte) : Prop := sent (.notice n) kind bytes
      let summary (x : Summary) : List Byte :=
        be16 x.id ++ be16 x.asset ++ be8 x.severity.code ++ be8 x.state.code ++ be16 x.urgency ++ be16 x.absorbed
          ++ be8 x.steps ++ be16 (x.openedDay.getD 0xFFFF)
      let codes : List (ReplyCode × Byte) :=
        [(.done, 0), (.busy, 1), (.badMode, 2), (.badIndex, 3), (.badEntry, 4), (.conflict, 5), (.full, 6), (.noSuch, 7),
          (.unknownKind, 8), (.aborted, 9), (.noAnswer, 10)]
      let causes : List (StartCause × Byte) := [(.powerOn, 0), (.full, 1), (.runtime, 2)]
      let modes : List (Mode × Byte) := [(.maintain, 0), (.entering, 1), (.run, 2)]
      let ends : List (StormCause × Byte) := [(.entry, 0), (.calm, 1), (.maintain, 2)]
      let conditions : List (Condition × Byte) := [(.unknown, 0), (.ok, 1), (.degraded, 2), (.fail, 3)]
      (∀ (tag : Byte) (data : List Byte), ∀ c ∈ codes, sent (.reply tag c.1 data) 0x30 (tag :: c.2 :: data))
      ∧ (∀ c ∈ causes, ∀ m ∈ modes, notice (.start c.1 m.1) 0x40 [c.2, m.2])
      ∧ (∀ x : Summary, notice (.opened x) 0x41 (summary x) ∧ notice (.changed x) 0x42 (summary x))
      ∧ (∀ i j : Nat, notice (.absorbed i j) 0x43 (be16 i ++ be16 j)
        ∧ notice (.cleared i j false) 0x44 (be16 i ++ be16 j ++ [0])
        ∧ notice (.cleared i j true) 0x44 (be16 i ++ be16 j ++ [1])
        ∧ (∀ c ∈ conditions, notice (.unresolved i j c.1) 0x45 (be8 i ++ be16 j ++ [c.2]))
        ∧ notice (.link i false) 0x46 (be8 i ++ [0]) ∧ notice (.link i true) 0x46 (be8 i ++ [1])
        ∧ ∀ c ∈ ends, notice (.storm false c.1 i) 0x47 ([0, c.2] ++ be16 (min 65535 i))
          ∧ notice (.storm true c.1 i) 0x47 ([1, c.2] ++ be16 (min 65535 i)))
      ∧ ∀ (o : Nat) (rs : List PointRecord), notice (.relay o rs) 0x48 (be8 o ++ be8 rs.length ++ rs.flatMap fun r =>
          be16 r.word.toNat ++ match r.count with
            | some v => be16 v.toNat
            | none => []))
    ∧ ∀ k : Fin 4,
      ((s.line k).transaction = none ∨ (∃ t ∈ (s.line k).transaction, t.phase = .awaiting) → s.lineFrame k = none)
      ∧ ∀ (t : Transaction) (x : Outstation), (s.line k).transaction = some t → t.phase ≠ .awaiting →
        s.outstation? t.outstation = some x → s.lineFrame k = some (match t.kind with
          | .sweep full => frameBytes (BitVec.ofNat 8 x.config.address) 0x01 [if full then 1 else 0]
          | .check full => frameBytes (BitVec.ofNat 8 x.config.address) 0x01 [if full then 1 else 0]
          | .order e => frameBytes (BitVec.ofNat 8 x.config.address) 0x02 e.payload)

/-- An arrival at the transmit queue (R188, R189): with a slot free it joins at the tail; at a full queue it displaces the
newest waiting frame of the lowest class when it outranks that class, REPLY above FAULT above RELAY, and is discarded
otherwise; each discard sets the lost flag. -/
def Obligations.TransmitDiscardRule : Prop :=
  ∀ (t : Trunk) (f : TrunkFrame),
    (t.occupancy < 64 → t.place f = { t with waiting := t.waiting ++ [f] })
    ∧ (64 ≤ t.occupancy → ∀ (older newer : List TrunkFrame) (g : TrunkFrame), t.waiting = older ++ g :: newer →
      (∀ h ∈ older, g.body.rank ≤ h.body.rank) → (∀ h ∈ newer, g.body.rank < h.body.rank) →
      t.place f =
        if g.body.rank < f.body.rank then { t with waiting := older ++ newer ++ [f], lost := true }
        else { t with lost := true })
    ∧ (∀ (tag : Byte) (code : ReplyCode) (data : List Byte) (n : Notice) (o : Nat) (rs : List PointRecord),
      (∀ o' rs', n ≠ .relay o' rs') → (FrameBody.notice (.relay o rs)).rank < (FrameBody.notice n).rank
        ∧ (FrameBody.notice n).rank < (FrameBody.reply tag code data).rank)

/-! ## Field lines -/

/-- A TALLY or QUIET that passes the receiver's tests is taken (R24, R29, R32, R36, R38, R47, R59 to R63): the good
frame counted, the outstation ONLINE and heard now, its integrity test no longer due, the awaited transaction ended
(logs 10, 19, 28), then the records applied one after another, the relay copy under the policy in force placed, the
sample set sampled in ascending asset number, and the DONE of an answered ORDER placed (log 11). The sample set is the
link asset with the assets of the outstation's STATUS points; no other asset's I or condition changes. Frames enter in
the order LINK, UNRESOLVED, RELAY, the samples' notices, DONE. -/
def Obligations.AnswerTaken : Prop :=
  ∀ (s : State) (k : Fin 4) (addr : Byte) (payload : List Byte) (rs : List PointRecord) (o : Nat) (x : Outstation)
    (c : Instr), s.TablesSound → s.resetHeld = false → s.mode = .run → (s.line k).settings.personality ≠ .off →
    payload.length + 6 ≤ (s.line k).settings.fmax →
    (c = .quiet k addr payload ∧ rs = []
      ∨ ∃ (n : Byte) (rest : List Byte), c = .tally k addr payload ∧ payload = n :: rest ∧ n.toNat ≤ 24
        ∧ readRecords n.toNat rest = some rs) →
    (o, x) ∈ s.outstations → o / 32 = k.val → x.config.address = addr.toNat →
    ∀ ended : Option Transaction,
    ended = (s.line k).transaction.filter (fun t => t.outstation = o ∧ t.phase ≠ .sending) →
    ((s.line k).settings.personality = .polled → ended ≠ none) →
    let selected : List PointRecord :=
      match x.config.policy with
      | .none => []
      | .all => if s.storm.on then rs.filter (recordChanged s.points o) else rs
      | .changes => rs.filter (recordChanged s.points o)
    let online : List TrunkFrame := if x.comms = .online then [] else [⟨s.trunk.node, .notice (.link o true)⟩]
    let relayed : List TrunkFrame := if selected = [] then [] else [⟨s.trunk.node, .notice (.relay o selected)⟩]
    let delivered : List TrunkFrame :=
      match ended with
      | some ⟨.order e, _, _, _⟩ => [⟨e.addr, .reply e.tag .done []⟩]
      | _ => []
    let heard : State :=
      { s with
        outstations := s.outstations.put o { x with
          comms := .online,
          retry := 0,
          lastHeard := some (s.time.runMinute * 60 + s.time.second),
          fullDue := if ended.map (fun t => t.kind) = some (.sweep true)
            ∨ ended.map (fun t => t.kind) = some (.check true) then false else x.fullDue,
          integrityDue := false },
        lines := s.lines.set k.val
          { s.line k with
            transaction := if ended = none then (s.line k).transaction else none,
            counters := { (s.line k).counters with good := min 65535 ((s.line k).counters.good + 1) },
            received := [] }
          k.isLt,
        trunk := online.foldl Trunk.place s.trunk }
    let applied : State := rs.foldl (fun u r => u.applyRecord o r) heard
    ∀ sampled : List Nat, sampled.Pairwise (· < ·) →
      (∀ a : Nat, a ∈ sampled ↔ s.asset? a ≠ none
        ∧ (x.config.link = some a ∨ ∃ e ∈ applied.points, e.1 / 1024 = o ∧ e.2.statusAsset = some a)) →
      let answered : State := ({ applied with trunk := relayed.foldl Trunk.place applied.trunk } : State).sampleAll sampled
      exec c s = .next ({ answered with trunk := delivered.foldl Trunk.place answered.trunk } : State).settleBeacons
      ∧ answered.points = (rs.foldl (fun u r => u.applyRecord o r) s).points
      ∧ answered.drops = (rs.foldl (fun u r => u.applyRecord o r) s).drops
      ∧ (∀ a : Nat, (answered.asset? a).map Asset.window
          = ((rs.foldl (fun u r => u.applyRecord o r) s).asset? a).map Asset.window)
      ∧ (∀ a : Nat, (answered.asset? a).map Asset.config = (s.asset? a).map Asset.config)
      ∧ (∀ a : Nat, a ∉ sampled →
          (answered.asset? a).map (fun y => (y.integrator, y.health)) = (s.asset? a).map fun y => (y.integrator, y.health))
      ∧ (∃ unresolved notices : List TrunkFrame,
          (∀ f ∈ unresolved, ∃ code held, f = ⟨s.trunk.node, .notice (.unresolved o code held)⟩)
          ∧ applied.trunk = unresolved.foldl Trunk.place heard.trunk
          ∧ (∀ f ∈ notices, f.addr = s.trunk.node ∧ f.body.rank = 1)
          ∧ answered.trunk = (online ++ unresolved ++ relayed ++ notices).foldl Trunk.place s.trunk)
      ∧ answered = { s with
          outstations := heard.outstations, lines := heard.lines, points := answered.points, drops := answered.drops,
          assets := answered.assets, records := answered.records, nextId := answered.nextId, waiting := answered.waiting,
          walkList := answered.walkList, storm := { s.storm with opens := answered.storm.opens }, trunk := answered.trunk }

/-- The point records of a TALLY (R195) and what each does (R48 to R51, R83 to R85): a STATUS point takes the condition; a
COUNT point takes the value as its baseline, with the rise counted into its LOOP's window, or its gap flag set when the
rise is above Dmax; a placeholder is overwritten; a key without an entry gets a placeholder with its UNRESOLVED notice,
or is dropped and counted when the map has no room. -/
def Obligations.TallyRecordsApply : Prop :=
  (∀ bytes : List Byte, readRecords 0 bytes = some [])
  ∧ (∀ (n : Nat) (hi lo chi clo : Byte) (rest : List Byte),
    readRecords (n + 1) [] = none ∧ readRecords (n + 1) [hi] = none
    ∧ (lo.getLsbD 2 = false → readRecords (n + 1) (hi :: lo :: rest)
        = (readRecords n rest).map fun rs => ⟨hi ++ lo, none⟩ :: rs)
    ∧ (lo.getLsbD 2 = true → readRecords (n + 1) [hi, lo] = none ∧ readRecords (n + 1) [hi, lo, chi] = none
        ∧ readRecords (n + 1) (hi :: lo :: chi :: clo :: rest)
          = (readRecords n rest).map fun rs => ⟨hi ++ lo, some (chi ++ clo)⟩ :: rs))
  ∧ (∀ r : PointRecord, r.code = r.word.toNat / 64 ∧ r.condition.code = r.word.toNat % 4)
  ∧ ∀ (s : State) (o a : Nat) (r : PointRecord) (c : Condition) (b n : Option Nat) (v : Word) (key : Nat),
    key = 1024 * o + r.code →
    (s.points.get? key = some (.status a c) →
      s.applyRecord o r = { s with points := s.points.put key (.status a r.condition) })
    ∧ (s.points.get? key = some (.pending c n) →
      s.applyRecord o r = { s with points := s.points.put key (.pending r.condition (r.count.map BitVec.toNat)) })
    ∧ (s.points.get? key = some (.count a b) → r.count = none → s.applyRecord o r = s)
    ∧ (s.points.get? key = some (.count a b) → r.count = some v →
      s.applyRecord o r = { s with
        points := s.points.put key (.count a (some v.toNat)),
        assets := s.assets.adjust a fun x => { x with window := x.window.map fun w =>
          match b with
          | none => w
          | some b =>
            let rise := if b ≤ v.toNat then v.toNat - b else v.toNat + 65536 - b
            if rise ≤ (x.config.loopProfile.map fun p => (s.loopProfile p).limit).getD 0 then
              { w with count := min 65535 (w.count + rise) }
            else { w with gap := true } } })
    ∧ (s.points.get? key = none → s.points.length < 4096 → (s.points.filter fun e => !e.2.resolved).length < 256 →
      s.applyRecord o r = { s with
        points := s.points.put key (.pending r.condition (r.count.map BitVec.toNat)),
        trunk := s.trunk.place ⟨s.trunk.node, .notice (.unresolved o r.code r.condition)⟩ })
    ∧ (s.points.get? key = none →
      (4096 ≤ s.points.length ∨ 256 ≤ (s.points.filter fun e => !e.2.resolved).length) →
      s.applyRecord o r = { s with drops := min 65535 (s.drops + 1) })

/-- Field frames that are discarded, and bytes that arrive (R37, R38, R30): without effect while the line is OFF or
HALTED; else, behind the bytes held, bytes before a start byte are passed over, a frame that is not whole yet is held,
and of a whole one the counter of the first failing test rises, up to 65535, with no other change: a length above Fmax,
a wrong check, a kind that is no answer, a TALLY of more than 24 records or shorter than it declares, an unknown
station, a stray on a POLLED line, a frame completed before its SWEEP is out among them (logs 10, 19, 20). A stray acts
as the TALLY or QUIET its kind names. -/
def Obligations.FieldFramesDiscarded : Prop :=
  ∀ (s : State) (k : Fin 4) (addr kind len : Byte) (payload rest noise new : List Byte), s.resetHeld = false →
    let l := s.line k
    let holding (bytes : List Byte) (f : LineCounters → LineCounters) : State :=
      { s with lines := s.lines.set k.val { l with counters := f l.counters, received := bytes } k.isLt }
    let counted (f : LineCounters → LineCounters) : State := holding [] f
    let crc := crc16 (addr :: kind :: BitVec.ofNat 8 payload.length :: payload)
    exec (.stray k addr 0x11 payload) s = exec (.tally k addr payload) s
    ∧ exec (.stray k addr 0x12 payload) s = exec (.quiet k addr payload) s
    ∧ ((l.settings.personality = .off ∨ s.mode ≠ .run) →
      s.fieldNext k rest = (.fieldFrameDiscard k rest, [])
      ∧ ∀ c ∈ [Instr.tally k addr payload, .quiet k addr payload, .stray k addr kind payload, .fieldFrameDiscard k rest],
        exec c s = .next s)
    ∧ (l.settings.personality ≠ .off → s.mode = .run → 16 ≤ l.settings.fmax → startByte ∉ noise →
      (l.received ++ new = noise → exec (.fieldFrameDiscard k new) s = .next (holding [] id)
        ∧ s.fieldNext k new = (.fieldFrameDiscard k new, []))
      ∧ (l.received ++ new = noise ++ startByte :: rest →
        (rest.length < 3 ∨ ∃ a b n fields, rest = a :: b :: n :: fields ∧ n.toNat + 6 ≤ l.settings.fmax
          ∧ fields.length < n.toNat + 2) →
        exec (.fieldFrameDiscard k new) s = .next (holding (startByte :: rest) id)
        ∧ s.fieldNext k new = (.fieldFrameDiscard k new, []))
      ∧ (l.received ++ new = noise ++ startByte :: addr :: kind :: len :: rest → l.settings.fmax < len.toNat + 6 →
        exec (.fieldFrameDiscard k new) s = .next (counted fun c => { c with overlong := min 65535 (c.overlong + 1) })
        ∧ s.fieldNext k new = (.fieldFrameDiscard k new, addr :: kind :: len :: rest))
      ∧ (l.settings.fmax < payload.length + 6 →
        ∀ c ∈ [Instr.tally k addr payload, .quiet k addr payload, .stray k addr kind payload],
          exec c s = .next (counted fun c => { c with overlong := min 65535 (c.overlong + 1) }))
      ∧ (payload.length + 6 ≤ l.settings.fmax → payload.length ≤ 255 →
        (∀ hi lo : Byte, [hi, lo] ≠ beWord crc →
          l.received ++ new
            = noise ++ startByte :: addr :: kind :: BitVec.ofNat 8 payload.length :: payload ++ hi :: lo :: rest →
          exec (.fieldFrameDiscard k new) s
            = .next (counted fun c => { c with checkErrors := min 65535 (c.checkErrors + 1) })
          ∧ s.fieldNext k new = (.fieldFrameDiscard k new,
              addr :: kind :: BitVec.ofNat 8 payload.length :: payload ++ hi :: lo :: rest))
        ∧ (l.received ++ new = noise ++ frameBytes addr kind payload ++ rest →
          s.fieldNext k new = (s.fieldCommand k addr kind payload new, rest)
          ∧ exec (s.fieldCommand k addr kind payload new) s = exec (.fieldFrameDiscard k new) s
          ∧ (kind ≠ 0x11 → kind ≠ 0x12 → exec (.fieldFrameDiscard k new) s
            = .next (counted fun c => { c with checkErrors := min 65535 (c.checkErrors + 1) })))
        ∧ (kind ≠ 0x11 → kind ≠ 0x12 → exec (.stray k addr kind payload) s
            = .next (counted fun c => { c with checkErrors := min 65535 (c.checkErrors + 1) }))
        ∧ ((∃ (n : Byte) (records : List Byte), payload = n :: records ∧ 24 < n.toNat) →
          exec (.tally k addr payload) s
            = .next (counted fun c => { c with overlong := min 65535 (c.overlong + 1) }))
        ∧ (payload = [] ∨ (∃ (n : Byte) (records : List Byte), payload = n :: records ∧ n.toNat ≤ 24
            ∧ readRecords n.toNat records = none) →
          exec (.tally k addr payload) s
            = .next (counted fun c => { c with checkErrors := min 65535 (c.checkErrors + 1) }))
        ∧ (∀ c ∈ [Instr.quiet k addr payload, .tally k addr payload],
          (∀ b p, c = .tally b addr p → ∃ (n : Byte) (records : List Byte), payload = n :: records ∧ n.toNat ≤ 24
            ∧ readRecords n.toNat records ≠ none) →
          ((∀ e ∈ s.outstations, e.1 / 32 = k.val → e.2.config.address ≠ addr.toNat) →
            exec c s = .next (counted fun c => { c with unknownStation := min 65535 (c.unknownStation + 1) }))
          ∧ (s.TablesSound → l.settings.personality = .polled → ∀ e ∈ s.outstations, e.1 / 32 = k.val →
            e.2.config.address = addr.toNat →
            (∀ t ∈ l.transaction, t.outstation = e.1 → t.phase = .sending) →
            exec c s = .next (counted fun c => { c with strays := min 65535 (c.strays + 1) })))))

/-- A READY POLLED line chooses (R27, R28, R31): the oldest downlink entry unless the previous transaction was an ORDER;
else the next outstation in ascending station address, swept at once unless it is SILENT with a countdown above 1, when
its countdown falls and the line goes on from the position it has reached. The position is that of the outstation most
recently chosen, at its present address, and the start of the cycle where that outstation is gone (log 18). In any other
state of the line nothing happens (log 16). -/
def Obligations.PollChoose : Prop :=
  ∀ (s : State) (k : Fin 4), s.TablesSound → s.resetHeld = false →
    let l := s.line k
    let position : Option Nat := (l.pollPosition.bind s.outstation?).map fun y => y.config.address
    let inCycle (p : Option Nat) (x : Outstation) : Prop :=
      (∃ q ∈ p, q < x.config.address
          ∧ ∀ e ∈ s.outstations, e.1 / 32 = k.val → q < e.2.config.address → x.config.address ≤ e.2.config.address)
        ∨ ((∀ q ∈ p, ∀ e ∈ s.outstations, e.1 / 32 = k.val → e.2.config.address ≤ q)
          ∧ ∀ e ∈ s.outstations, e.1 / 32 = k.val → x.config.address ≤ e.2.config.address)
    let sending (l : Line) (o : Nat) (kind : TransactionKind) (previous : Previous) : Line :=
      { l with
        transaction := some { kind := kind, outstation := o, phase := .sending, timer := none }, previous := some previous }
    (l.settings.personality ≠ .polled ∨ s.mode ≠ .run ∨ l.transaction ≠ none → exec (.pollChoose k) s = .next s)
    ∧ (l.settings.personality = .polled → s.mode = .run → l.transaction = none →
      (∀ (e : Downlink) (queue : List Downlink), l.queue = e :: queue → l.previous ≠ some .order →
        exec (.pollChoose k) s = .next { s with
          lines := s.lines.set k.val (sending { l with queue := queue } e.outstation (.order e) .order) k.isLt })
      ∧ (l.queue = [] ∨ l.previous = some .order →
        ((∀ e ∈ s.outstations, e.1 / 32 ≠ k.val) → exec (.pollChoose k) s = .next s)
        ∧ ∀ (o : Nat) (x : Outstation), (o, x) ∈ s.outstations → o / 32 = k.val → inCycle position x →
          (x.comms ≠ .silent → exec (.pollChoose k) s = .next { s with
            lines := s.lines.set k.val (sending { l with pollPosition := some o } o
              (.sweep (decide (x.comms = .new) || x.fullDue)) .sweep) k.isLt })
          ∧ (x.comms = .silent → x.countdown ≤ 1 → exec (.pollChoose k) s = .next { s with
            lines := s.lines.set k.val (sending { l with pollPosition := some o } o (.sweep true) .sweep)
              k.isLt,
            outstations := s.outstations.adjust o fun x => { x with countdown := l.settings.rv } })
          ∧ (x.comms = .silent → 1 < x.countdown →
            exec (.pollChoose k) s = exec (.pollChoose k) { s with
              lines := s.lines.set k.val { l with pollPosition := some o } k.isLt,
              outstations := s.outstations.adjust o fun x => { x with countdown := x.countdown - 1 } })))

/-- A READY EXCEPTION line chooses (R33, R34): an ORDER or a check, of both the ORDER unless the previous transaction was
one; the check goes to the due outstation of lowest station address, with FULL as R31 decides. With neither, and in any
other state of the line, nothing happens (log 16). A set full-due flag makes a SILENT outstation due too, as the table of
R33 says (log 9); the integrity test is the outcome of the last second tick the line has taken (log 12). -/
def Obligations.ExceptionChoose : Prop :=
  ∀ (s : State) (k : Fin 4), s.TablesSound → s.resetHeld = false →
    let l := s.line k
    let isDue (x : Outstation) : Prop :=
      x.fullDue = true
        ∨ (x.comms ≠ .silent ∧ x.integrityDue = true)
        ∨ (x.comms = .silent ∧ x.countdown = 0)
    let sent (queue : List Downlink) (o : Nat) (kind : TransactionKind) (previous : Previous) : State :=
      { s with
        lines := s.lines.set k.val
          { l with
            queue := queue,
            transaction := some { kind := kind, outstation := o, phase := .sending, timer := none },
            previous := some previous }
          k.isLt }
    (l.settings.personality ≠ .exception ∨ s.mode ≠ .run ∨ l.transaction ≠ none → exec (.exceptionChoose k) s = .next s)
    ∧ (l.settings.personality = .exception → s.mode = .run → l.transaction = none →
      (l.queue = [] → (∀ e ∈ s.outstations, e.1 / 32 = k.val → ¬isDue e.2) → exec (.exceptionChoose k) s = .next s)
      ∧ (∀ (e : Downlink) (queue : List Downlink), l.queue = e :: queue →
        (l.previous ≠ some .order ∨ ∀ e ∈ s.outstations, e.1 / 32 = k.val → ¬isDue e.2) →
        exec (.exceptionChoose k) s = .next (sent queue e.outstation (.order e) .order))
      ∧ ∀ (o : Nat) (x : Outstation), (o, x) ∈ s.outstations → o / 32 = k.val → isDue x →
        (∀ e ∈ s.outstations, e.1 / 32 = k.val → isDue e.2 → x.config.address ≤ e.2.config.address) →
        (l.queue = [] ∨ l.previous = some .order) →
        exec (.exceptionChoose k) s
          = .next (sent l.queue o (.check (decide (x.comms ≠ .online) || x.fullDue)) .sweep))

/-- The last byte of a SWEEP, check SWEEP or ORDER starts the reply timer with T1; a SWEEP's expiry below N2 counts a
timeout, raises r and sends it again with the same FULL flag (R29, R36, R17). An ORDER's expiry counts a timeout, answers
NO-ANSWER to the entry's tag and address, and leaves the outstation alone; it is not sent again (R36). Each command is
without effect while its line sends or awaits no such frame (log 16). -/
def Obligations.TransactionTimers : Prop :=
  ∀ (s : State) (k : Fin 4), s.resetHeld = false →
    let l := s.line k
    (s.mode ≠ .run → ∀ c ∈ [Instr.sweepSent k, .orderSent k, .sweepTimeout k, .orderTimeout k], exec c s = .next s)
    ∧ (∀ t : Transaction, l.transaction = some t →
      (t.kind.isSweep = false → exec (.sweepSent k) s = .next s ∧ exec (.sweepTimeout k) s = .next s)
      ∧ (t.kind.isSweep = true → exec (.orderSent k) s = .next s ∧ exec (.orderTimeout k) s = .next s))
    ∧ (∀ t : Transaction, s.mode = .run → l.transaction = some t → t.phase ≠ .awaiting →
      ∀ c : Instr, c = (match t.kind with
        | .order _ => .orderSent k
        | _ => .sweepSent k) →
      exec c s = .next { s with
        lines := s.lines.set k.val
          { l with transaction := some { t with phase := .awaiting, timer := some l.settings.t1 } } k.isLt })
    ∧ (l.transaction = none ∨ (∃ t ∈ l.transaction, t.phase = .awaiting) →
      exec (.sweepSent k) s = .next s ∧ exec (.orderSent k) s = .next s)
    ∧ (l.transaction = none ∨ (∃ t ∈ l.transaction, t.phase ≠ .awaiting) →
      exec (.sweepTimeout k) s = .next s ∧ exec (.orderTimeout k) s = .next s)
    ∧ (∀ (t : Transaction) (x : Outstation), s.mode = .run → l.settings.personality ≠ .off → l.transaction = some t →
      t.phase = .awaiting → t.kind.isSweep = true → s.outstation? t.outstation = some x → x.retry < l.settings.n2 →
      exec (.sweepTimeout k) s = .next { s with
        lines := s.lines.set k.val
          { l with
            transaction := some { t with phase := .resending, timer := none },
            counters := { l.counters with timeouts := min 65535 (l.counters.timeouts + 1) } }
          k.isLt,
        outstations := s.outstations.adjust t.outstation fun x => { x with retry := x.retry + 1 } })
    ∧ (∀ (e : Downlink) (t : Transaction), s.mode = .run → l.settings.personality ≠ .off → l.transaction = some t →
      t.kind = .order e → t.phase = .awaiting →
      exec (.orderTimeout k) s = .next (({ s with
        lines := s.lines.set k.val
          { l with
            transaction := none,
            counters := { l.counters with timeouts := min 65535 (l.counters.timeouts + 1) } }
          k.isLt } : State).reply ⟨e.addr, e.tag⟩ .noAnswer []))

/-- The absorption law (R125, R124, R131 to R135, R138, R11): how far the absorbed-by fields may lag is kept by every
step; and where it holds with the walk list empty and no walk in flight, in RUN every asset's absorbed-by names its
highest ancestor holding a record, or is absent if none does, and no asset holding a record has an ancestor holding
one. -/
def Obligations.AbsorptionLawKept : Prop :=
  (∀ s t : State, s.Canonical → s.InRange → s.TreeLaw → s.FaultLaw → s.AbsorptionLaw → step s = .next t →
    t.AbsorptionLaw)
  ∧ ∀ s : State, s.Canonical → s.TreeLaw → s.FaultLaw → s.AbsorptionLaw → s.mode = .run → s.walkList = [] → s.walk = none →
    ∀ e ∈ s.assets,
      (∀ z : Nat, e.2.absorbedBy = some z → ∃ lower higher : List Nat, s.ancestorsOf e.1 = lower ++ z :: higher
        ∧ s.faultIdOf z ≠ none ∧ ∀ h ∈ higher, s.faultIdOf h = none)
      ∧ (e.2.absorbedBy = none → ∀ b ∈ s.ancestorsOf e.1, s.faultIdOf b = none)
      ∧ (e.2.faultId ≠ none → ∀ b ∈ s.ancestorsOf e.1, s.faultIdOf b = none)

/-- A SWEEP or check that expires with r at N2 fails (R25, R26, R29, R33, R58). An outstation that was not SILENT becomes
so, with its LINK notice, full-due set and its countdown loaded, its STATUS points UNKNOWN, its COUNT baselines absent and
the gap flag of every LOOP they name set; one that was SILENT keeps all this, its countdown reloaded on an EXCEPTION
line. Then the link asset, if there is one, receives one sample; no other asset's I or condition changes. -/
def Obligations.SweepFailureSilences : Prop :=
  ∀ (s : State) (k : Fin 4) (tr : Transaction) (x : Outstation), s.Canonical → s.resetHeld = false → s.mode = .run →
    (s.line k).settings.personality ≠ .off → (s.line k).transaction = some tr → tr.phase = .awaiting →
    tr.kind.isSweep = true → s.outstation? tr.outstation = some x → (s.line k).settings.n2 ≤ x.retry →
    let l := s.line k
    let newly : Bool := x.comms ≠ .silent
    let silenced : State :=
      { s with
        lines := s.lines.set k.val
          { l with
            transaction := none, counters := { l.counters with timeouts := min 65535 (l.counters.timeouts + 1) } }
          k.isLt,
        outstations := s.outstations.put tr.outstation { x with
          comms := .silent,
          retry := 0,
          fullDue := newly || x.fullDue,
          integrityDue := !newly && x.integrityDue,
          countdown := if l.settings.personality = .exception then l.settings.g
            else if newly then l.settings.rv else x.countdown },
        points := s.points.mapAll fun key p =>
          if newly = true ∧ key / 1024 = tr.outstation then
            match p with
            | .status a _ => .status a .unknown
            | .count a _ => .count a none
            | .pending c n => .pending c n
          else p,
        assets := s.assets.mapAll fun a y =>
          if newly = true ∧ ∃ e ∈ s.points, e.1 / 1024 = tr.outstation ∧ e.2.countAsset = some a then
            { y with window := y.window.map fun w => { w with gap := true } }
          else y,
        trunk := if newly then s.trunk.place ⟨s.trunk.node, .notice (.link tr.outstation false)⟩ else s.trunk }
    let sampled : State := match x.config.link with
      | some a => silenced.sample a
      | none => silenced
    exec (.sweepTimeout k) s = .next sampled.settleBeacons
      ∧ (∀ a : Nat, (sampled.asset? a).map (fun y => (y.config, y.window))
          = (silenced.asset? a).map fun y => (y.config, y.window))
      ∧ (∀ a : Nat, x.config.link ≠ some a →
          (sampled.asset? a).map (fun y => (y.integrator, y.health)) = (s.asset? a).map fun y => (y.integrator, y.health))
      ∧ (∃ notices : List TrunkFrame, (∀ f ∈ notices, f.addr = s.trunk.node ∧ f.body.rank = 1)
          ∧ sampled.trunk = notices.foldl Trunk.place silenced.trunk)
      ∧ sampled = { silenced with
          assets := sampled.assets, records := sampled.records, nextId := sampled.nextId, waiting := sampled.waiting,
          walkList := sampled.walkList, storm := { s.storm with opens := sampled.storm.opens }, trunk := sampled.trunk }

/-! ## Ticks and minute events -/

/-- The ticks (R171, R172, R33, R168): the second count wraps into a minute tick, which moves run-minute and a valid
day-minute, and each tick hands its work to the blocks. Work of an earlier tick still owed is done first, by its own
rows in an order that is a free value (logs 5, 7). A line unit's work, in RUN on an EXCEPTION line, lowers the countdowns
of its SILENT outstations and keeps the integrity test of the others (log 12); a beacon's lowers its stretch count, and
takes the output with it at 0 while the source is false. Work that is not owed does nothing (log 16); a minute tick away
from second 59 is taken as one (log 6). -/
def Obligations.TicksAdvance : Prop :=
  ∀ (s : State) (k b : Fin 4), s.resetHeld = false →
    let minute : TimeBase :=
      { second := 0, runMinute := (s.time.runMinute + 1) % 4294967296,
        dayMinute := s.time.dayMinute.map fun d => (d + 1) % 1440 }
    let ofSecond : List TickWork :=
      [.line 0, .line 1, .line 2, .line 3, .beacon 0, .beacon 1, .beacon 2, .beacon 3]
    let ofMinute : List TickWork := [.ranker, .windows, .storm]
    let row (w : TickWork) : Instr :=
      match w with
      | .line k => .lineSecondWork k
      | .beacon b => .beaconStretchTick b
      | .ranker => .rankerMinuteEvent
      | .windows => .windowCloseEvent
      | .storm => .stormMinuteEvent
    let run (u : State) (c : Instr) : State :=
      match exec c u with
      | .next t => t
      | _ => u
    (s.owed = [] → s.finishOwed = s)
    ∧ (s.owed ≠ [] → ∃ rows : List Instr, rows.Perm (s.owed.map row)
      ∧ s.finishOwed = { rows.foldl run s with owed := [], freeCount := s.freeCount + 1 })
    ∧ (∀ c ∈ [Instr.secondTick, .minuteTick], exec c s = exec c s.finishOwed)
    ∧ (s.owed = [] → s.time.second < 59 → exec .secondTick s = .next { s with
      time := { s.time with second := s.time.second + 1 }, owed := ofSecond })
    ∧ (s.owed = [] → 59 ≤ s.time.second →
      exec .secondTick s = .next { s with time := minute, owed := ofSecond ++ ofMinute })
    ∧ (s.owed = [] → exec .minuteTick s = .next { s with time := minute, owed := ofMinute })
    ∧ (.line k ∉ s.owed → exec (.lineSecondWork k) s = .next s)
    ∧ (.beacon b ∉ s.owed → exec (.beaconStretchTick b) s = .next s)
    ∧ (.line k ∈ s.owed → exec (.lineSecondWork k) s = .next { s with
        owed := s.owed.erase (.line k),
        outstations := s.outstations.mapAll fun o x =>
          if ¬(s.mode = .run ∧ (s.line k).settings.personality = .exception ∧ o / 32 = k.val) then x
          else if x.comms = .silent then { x with countdown := x.countdown - 1, integrityDue := false }
          else { x with integrityDue := match x.lastHeard with
            | some h => h + (s.line k).settings.g ≤ s.time.runMinute * 60 + s.time.second
            | none => false } })
    ∧ (.beacon b ∈ s.owed → exec (.beaconStretchTick b) s = .next { s with
        owed := s.owed.erase (.beacon b),
        beacons := s.beacons.set b.val
          (if (s.beacon b).count = 0 then s.beacon b
          else
            { s.beacon b with
              count := (s.beacon b).count - 1,
              output := (s.beacon b).output && ((s.beacon b).count ≠ 1 || (s.beacon b).value) })
          b.isLt })

/-- The ranker's minute event at a minute tick handed to it (R147, R148, R153 to R155, R172): in RUN every OPEN record
under an E above 0 counts a minute, and steps at E with U recomputed; then, at a notice tick, one CHANGED notice for
every flagged record in queue order, and every flag cleared. With none handed on nothing happens (log 16). -/
def Obligations.RankerMinute : Prop :=
  ∀ s : State, s.Canonical → s.resetHeld = false →
    let escalated (r : FaultRecord) : FaultRecord :=
      match s.asset? r.asset with
      | none => r
      | some x =>
        let p := s.faultProfile x.config.faultProfile
        if s.mode ≠ .run ∨ r.state = .acked ∨ p.interval = 0 then r
        else if r.minutes + 1 < p.interval then { r with minutes := r.minutes + 1 }
        else if r.steps < 15 then
          let u := urgencyOf p r.severity x.config.weight r.absorbed (r.steps + 1)
          { r with minutes := 0, steps := r.steps + 1, urgency := u, changeDue := r.changeDue || u ≠ r.urgency }
        else { r with minutes := 0, steps := 15 }
    let u : State :=
      { s with records := s.records.mapAll fun _ r => escalated r, owed := s.owed.erase .ranker }
    (.ranker ∉ s.owed → exec .rankerMinuteEvent s = .next s)
    ∧ (.ranker ∈ s.owed → exec .rankerMinuteEvent s = .next (
      if s.storm.on = false ∨ s.time.runMinute % 5 = 0 then
        ({ u with
          records := u.records.mapAll fun _ r => { r with changeDue := false },
          trunk := ((u.dispatchQueue.filter fun e => e.2.changeDue).map fun e =>
            (⟨s.trunk.node, .notice (.changed (e.2.summary e.1))⟩ : TrunkFrame)).foldl Trunk.place s.trunk } :
          State).settleBeacons
      else u.settleBeacons))

/-- The loop supervisor's minute event at a minute tick handed to it (R87 to R91, R172): out of RUN or without valid
time no window closes; else the window of every LOOP whose Wlen divides the day-minute closes, in ascending asset
number, judged by the band of its start minute, and that LOOP is sampled before the next closes; no other asset's
window, I or condition changes. With none handed on nothing happens (log 16). -/
def Obligations.WindowsCloseAndAreJudged : Prop :=
  ∀ s : State, s.Canonical → s.resetHeld = false →
    (∀ p : Fin 8, (s.loopProfile p).InRange) →
    let taken : State := { s with owed := s.owed.erase .windows }
    (.windows ∉ s.owed → exec .windowCloseEvent s = .next s)
    ∧ (.windows ∈ s.owed → s.mode ≠ .run ∨ s.time.dayMinute = none →
      exec .windowCloseEvent s = .next taken.settleBeacons)
    ∧ ∀ d : Nat, .windows ∈ s.owed → s.mode = .run → s.time.dayMinute = some d → d ≤ 1439 →
      let bandOf (p : LoopProfile) (start : Nat) : Band :=
        if p.band3.start ≤ start then p.band3 else if p.band2.start ≤ start then p.band2
        else if p.band1.start ≤ start then p.band1 else p.band0
      let judged (p : LoopProfile) (w : Window) : Window :=
        let band := bandOf p (if p.length ≤ d then d - p.length else d + 1440 - p.length)
        { count := 0,
          gap := false,
          last := some w.count,
          result :=
            if w.gap then .unknown
            else if w.count = 0 ∧ 0 < band.min then .fail
            else if 0 < w.count ∧ w.count < band.min then .degraded
            else if band.max < w.count then .degraded
            else .ok }
      let close (u : State) (a : Nat) : State :=
        ({ u with assets := u.assets.adjust a fun x =>
            { x with window := x.config.loopProfile.bind fun p => x.window.map (judged (s.loopProfile p)) } } :
          State).sample a
      (∀ (p : Fin 8) (start : Nat),
        let bands := [(s.loopProfile p).band0, (s.loopProfile p).band1, (s.loopProfile p).band2, (s.loopProfile p).band3]
        let band := bandOf (s.loopProfile p) start
        band ∈ bands ∧ band.start ≤ start ∧ ∀ b ∈ bands, b.start ≤ start → b.start ≤ band.start)
      ∧ ∀ due : List Nat, due.Pairwise (· < ·) →
        (∀ a : Nat, a ∈ due ↔ ∃ (x : Asset) (p : Fin 8), s.asset? a = some x ∧ x.window ≠ none
          ∧ x.config.loopProfile = some p ∧ d % (s.loopProfile p).length = 0) →
        let t : State := due.foldl close taken
        exec .windowCloseEvent s = .next t.settleBeacons
        ∧ (∀ (a : Nat) (x : Asset), s.asset? a = some x → a ∉ due →
          (t.asset? a).map (fun y => (y.window, y.integrator, y.health)) = some (x.window, x.integrator, x.health))
        ∧ (∀ (a : Nat) (x : Asset) (p : Fin 8), s.asset? a = some x → a ∈ due → x.config.loopProfile = some p →
          (t.asset? a).map Asset.window = some (x.window.map (judged (s.loopProfile p))))
        ∧ (∀ a : Nat, (t.asset? a).map Asset.config = (s.asset? a).map Asset.config)
        ∧ (∃ notices : List TrunkFrame, (∀ f ∈ notices, f.addr = s.trunk.node ∧ f.body.rank = 1)
            ∧ t.trunk = notices.foldl Trunk.place s.trunk)
        ∧ t = { taken with
            assets := t.assets, records := t.records, nextId := t.nextId, waiting := t.waiting,
            walkList := t.walkList, storm := { s.storm with opens := t.storm.opens }, trunk := t.trunk }

/-- The storm monitor's minute event at a minute tick handed to it (R161 to R163, R172): in RUN the count is
compared with Se while off and with Sx while on, each change of state with its STORM notice; in every mode the count is
then 0. With none handed on nothing happens (log 16). -/
def Obligations.StormMinute : Prop :=
  ∀ s : State, s.resetHeld = false → (s.storm.on = false → s.storm.calm = 0) →
    let m := s.storm
    let left (on : Bool) (calm : Nat) (notices : List Notice) : State :=
      ({ s with
        owed := s.owed.erase .storm,
        storm := { m with on := on, calm := calm, opens := 0 },
        trunk := (notices.map fun n => (⟨s.trunk.node, .notice n⟩ : TrunkFrame)).foldl Trunk.place s.trunk } :
        State).settleBeacons
    (.storm ∉ s.owed → exec .stormMinuteEvent s = .next s)
    ∧ (.storm ∈ s.owed → exec .stormMinuteEvent s = .next (
      if s.mode ≠ .run then left m.on m.calm []
      else if m.on = false then
        if m.entry = 0 ∨ m.opens < m.entry then left false 0 [] else left true 0 [.storm true .entry m.opens]
      else if m.exit ≤ m.opens then left true 0 []
      else if m.calm + 1 < m.calmPeriod then left true (m.calm + 1) []
      else left false 0 [.storm false .calm m.opens]))

/-! ## Walks -/

/-- A queue request, and the beginning of a walk (R127, R129, R131): a root's entry keeps its place and takes the kind, or
a new entry joins the tail; in RUN with no walk in flight the head becomes the walk, an ABSORB walk noting its root's
record, and ends at once without a record to note or without descendants (log 15). In any other state nothing begins (log
16). -/
def Obligations.WalkBegins : Prop :=
  (∀ (list : List WalkEntry) (root : Nat) (kind : WalkKind), (∀ e ∈ list, e.root ≠ root) →
    queueEntry list root kind = list ++ [⟨root, kind⟩])
  ∧ (∀ (before after : List WalkEntry) (root : Nat) (old kind : WalkKind),
    (∀ e ∈ before ++ after, e.root ≠ root) →
    queueEntry (before ++ ⟨root, old⟩ :: after) root kind = before ++ ⟨root, kind⟩ :: after)
  ∧ ∀ s : State, s.resetHeld = false →
    (s.mode ≠ .run ∨ s.walk ≠ none ∨ s.walkList = [] → exec .walkBegin s = .next s)
    ∧ ∀ (e : WalkEntry) (rest : List WalkEntry), s.mode = .run → s.walk = none → s.walkList = e :: rest →
      exec .walkBegin s = .next { s with
        walkList := rest,
        walk :=
          if (e.kind = .absorb ∧ s.faultIdOf e.root = none) ∨ s.childrenOf e.root = [] then none
          else some {
            root := e.root, kind := e.kind, recorded := if e.kind = .absorb then s.faultIdOf e.root else none,
            cursor := [] } }

/-- The order of visits on a tree that stands still (R130, R138): a walk visits its root's descendants in depth-first
preorder, children in ascending asset number, each once, and then ends; the rebuild visits every present asset once, the
roots in ascending asset number and after each its descendants. -/
def Obligations.WalkVisitsInPreorder : Prop :=
  ∀ s : State, s.Canonical → s.TreeLaw →
    (∀ a n : Nat, ((fun c : Option (List Nat) => c.bind (nextCursor s a))^[n + 1] (some [])).bind List.getLast?
      = (s.descendantsOf a)[n]?)
    ∧ (∀ a : Nat, s.childrenOf a = (s.assets.filter fun e => e.2.config.parent = some a).map Prod.fst
      ∧ (s.childrenOf a).Pairwise (· < ·)
      ∧ s.descendantsOf a = (s.childrenOf a).flatMap fun c => c :: s.descendantsOf c)
    ∧ s.roots = (s.assets.filter fun e => e.2.config.parent = none).map Prod.fst ∧ s.roots.Pairwise (· < ·)
    ∧ s.forest = s.roots.flatMap (fun r => r :: s.descendantsOf r)
    ∧ s.forest.Perm (s.assets.map Prod.fst)
    ∧ ∀ n : Nat, ((fun v : Option (Option Nat) => v.bind fun last => (s.rebuildNext last).map some)^[n + 1] (some none))
      = (s.forest[n]?).map some

/-- One visit of an ABSORB walk (R131, R132, R106, R111 to R113, R167): abandoned when the root no longer holds the
recorded record; else a next descendant that already names the root is left alone, and any other names it: its own
record is absorbed with its ABSORBED notice and the head of the waiting list served, or its wait ends, and a FAULTY one
moves from its old absorber's n to the root's. The walk ends within the visit after which no descendant is left (log
15). -/
def Obligations.AbsorbVisit : Prop :=
  ∀ (s : State) (w : Walk), s.Canonical → s.FaultLaw → s.TreeLaw → s.resetHeld = false → s.mode = .run →
    s.walk = some w → w.kind = .absorb →
    (w.recorded = none ∨ s.faultIdOf w.root ≠ w.recorded ∨ nextCursor s w.root w.cursor = none →
      exec .absorbVisit s = .next ({ s with walk := none } : State).settleBeacons)
    ∧ ∀ (id d : Nat) (cursor : List Nat) (x : Asset), w.recorded = some id →
      s.faultIdOf w.root = some id → nextCursor s w.root w.cursor = some cursor → cursor.getLast? = some d →
      s.asset? d = some x →
      let visited (t : State) : State :=
        ({ t with walk := if nextCursor s w.root cursor = none then none else some { w with cursor := cursor } } :
          State).settleBeacons
      let named : State := { s with assets := s.assets.adjust d fun x => { x with absorbedBy := some w.root } }
      (x.absorbedBy = some w.root → exec .absorbVisit s = .next (visited s))
      ∧ (x.absorbedBy ≠ some w.root →
        (x.health = .healthy → exec .absorbVisit s = .next (visited named))
        ∧ (∀ z : Nat, x.health ≠ .healthy → x.absorbedBy = some z →
          exec .absorbVisit s = .next (visited ((named.lowerOn z).raiseOn w.root)))
        ∧ (∀ own : Nat, x.faultId = some own → exec .absorbVisit s = .next (visited (({ s with
            assets := s.assets.adjust d fun x => { x with absorbedBy := some w.root, faultId := none },
            records := s.records.del own,
            trunk := s.trunk.place ⟨s.trunk.node, .notice (.absorbed own id)⟩ } : State).raiseOn w.root).serveWaiting))
        ∧ (x.waiting = true → exec .absorbVisit s = .next (visited (({ s with
            assets := s.assets.adjust d fun x => { x with absorbedBy := some w.root, waiting := false },
            waiting := s.waiting.filter fun b => b ≠ d } : State).raiseOn w.root))))

/-- One visit of a RELEASE walk (R133, R134): abandoned when the root holds a record; else the next descendant, when it
names the root or another asset without a record, is given to its highest ancestor that holds one, whose n counts it if
FAULTY, or is left unabsorbed, with an open request if FAULTY. Any other descendant is left alone. The walk ends within
the visit after which no descendant is left (log 15). -/
def Obligations.ReleaseVisit : Prop :=
  ∀ (s : State) (w : Walk), s.Canonical → s.FaultLaw → s.TreeLaw → s.resetHeld = false → s.mode = .run →
    s.walk = some w → w.kind = .release →
    (s.faultIdOf w.root ≠ none ∨ nextCursor s w.root w.cursor = none →
      exec .releaseVisit s = .next ({ s with walk := none } : State).settleBeacons)
    ∧ ∀ (d : Nat) (cursor : List Nat) (x : Asset), s.faultIdOf w.root = none →
      nextCursor s w.root w.cursor = some cursor → cursor.getLast? = some d → s.asset? d = some x →
      let next : Option Walk := if nextCursor s w.root cursor = none then none else some { w with cursor := cursor }
      let named (z : Option Nat) : State := { s with assets := s.assets.adjust d fun x => { x with absorbedBy := z } }
      ((∀ z ∈ x.absorbedBy, z ≠ w.root ∧ s.faultIdOf z ≠ none) →
        exec .releaseVisit s = .next ({ s with walk := next } : State).settleBeacons)
      ∧ ((∃ z ∈ x.absorbedBy, z = w.root ∨ s.faultIdOf z = none) →
        (∀ (lower higher : List Nat) (z : Nat), s.ancestorsOf d = lower ++ z :: higher → s.faultIdOf z ≠ none →
          (∀ h ∈ higher, s.faultIdOf h = none) →
          exec .releaseVisit s = .next ((if x.health = .healthy then named (some z)
            else (named (some z)).raiseOn z).setWalk next).settleBeacons)
        ∧ ((∀ h ∈ s.ancestorsOf d, s.faultIdOf h = none) →
          exec .releaseVisit s = .next ((if x.health = .healthy then named none
            else (named none).openFault d).setWalk next).settleBeacons))

/-- One visit of the rebuild (R138, R139, R176): the next asset's absorbed-by becomes its highest ancestor that holds a
record, into which its own record is absorbed and which counts it if FAULTY, its wait ending; with no such ancestor it
is left unabsorbed, and opens a fault if FAULTY with neither record nor wait. After the last asset the part enters RUN,
its lines at the start of a cycle, and the owed DONE is sent; work of a tick taken in ENTERING that is still owed is done
before (log 5). Outside ENTERING nothing happens but the beacons' evaluation (log 16). -/
def Obligations.RebuildVisit : Prop :=
  ∀ s : State, s.Canonical → s.FaultLaw → s.TreeLaw → s.resetHeld = false →
    (s.mode ≠ .entering ∨ s.rebuild = none → exec .rebuildVisit s = .next s.settleBeacons)
    ∧ ∀ (b : Rebuild), s.mode = .entering → s.rebuild = some b →
      ((∀ v ∈ s.rebuildNext b.last, s.rebuildNext (some v) = none) →
        exec .rebuildVisit s = exec .rebuildVisit s.finishOwed)
      ∧ (s.owed = [] ∨ (∃ v ∈ s.rebuildNext b.last, s.rebuildNext (some v) ≠ none) →
        let entered (t : State) : State :=
          ({ t with
            mode := .run,
            rebuild := none,
            lines := t.lines.map fun l =>
              if l.settings.personality = .off then l else { l with pollPosition := none, previous := none } } :
            State).replyIfOwed b.owed .done
        (s.rebuildNext b.last = none → exec .rebuildVisit s = .next (entered s).settleBeacons)
        ∧ ∀ (v : Nat) (x : Asset), s.rebuildNext b.last = some v → s.asset? v = some x →
          let ended (t : State) : State :=
            if s.rebuildNext (some v) = none then (entered t).settleBeacons
            else ({ t with rebuild := some { b with last := some v } } : State).settleBeacons
          let named (z : Option Nat) : State := { s with assets := s.assets.adjust v fun x => { x with absorbedBy := z } }
          ((∀ h ∈ s.ancestorsOf v, s.faultIdOf h = none) →
            exec .rebuildVisit s = .next (ended (
              if x.health ≠ .healthy ∧ x.faultId = none ∧ x.waiting = false then (named none).openFault v else named none)))
          ∧ ∀ (lower higher : List Nat) (z id : Nat), s.ancestorsOf v = lower ++ z :: higher → s.faultIdOf z = some id →
            (∀ h ∈ higher, s.faultIdOf h = none) →
            (∀ own : Nat, x.faultId = some own → exec .rebuildVisit s = .next (ended (({ s with
              assets := s.assets.adjust v fun x => { x with absorbedBy := some z, faultId := none },
              records := s.records.del own,
              trunk := s.trunk.place ⟨s.trunk.node, .notice (.absorbed own id)⟩ } : State).serveWaiting.raiseOn z)))
            ∧ (x.faultId = none → x.health = .healthy → exec .rebuildVisit s = .next (ended (named (some z))))
            ∧ (x.faultId = none → x.health ≠ .healthy → exec .rebuildVisit s = .next (ended (({ s with
              assets := s.assets.adjust v fun x => { x with absorbedBy := some z, waiting := false },
              waiting := s.waiting.filter fun b => b ≠ v } : State).raiseOn z))))

/-! ## Samples and fault requests -/

/-- A sample (R13, R69 to R73): its worst condition is the highest of the asset's contributing sources, UNKNOWN for
none; I steps and saturates; the condition and severity follow. Then the fault table is handed the change:
became-faulty, became-healthy, severity-raised, or nothing where condition and severity stand. No other asset's I or
condition changes. -/
def Obligations.SampleSteps : Prop :=
  ∀ (s : State) (a : Nat) (x : Asset) (w : Condition), s.Canonical → s.asset? a = some x →
    let contributes (c : Condition) : Prop :=
      ((∃ e ∈ s.points, e.2 = .status a c)
        ∨ (∃ e ∈ s.outstations, e.2.config.link = some a ∧ c = (match e.2.comms with
          | .new => .unknown
          | .online => .ok
          | .silent => .fail))
        ∨ ∃ l ∈ x.window, l.result = c)
    (w = .unknown ∨ contributes w) → (∀ c, contributes c → c.code ≤ w.code) →
    let p := s.faultProfile x.config.faultProfile
    let i : Nat :=
      match w with
      | .fail => min p.ceiling (x.integrator + p.up)
      | .degraded => min p.ceiling (x.integrator + p.degrade)
      | .ok => x.integrator - p.down
      | .unknown => x.integrator
    let h : Health :=
      match x.health with
      | .healthy => if i < p.threshold then .healthy else .faulty (if w = .fail then .fail else .degraded)
      | .faulty severity => if i = 0 then .healthy else .faulty (if w = .fail then .fail else severity)
    ((s.sample a).asset? a).map (fun y => (y.integrator, y.health)) = some (i, h)
    ∧ (∀ b : Nat, b ≠ a → ((s.sample a).asset? b).map (fun y => (y.integrator, y.health))
        = (s.asset? b).map fun y => (y.integrator, y.health))
    ∧ (let stepped : State := { s with assets := s.assets.put a { x with integrator := i, health := h } }
      s.sample a = match x.health, h with
        | .healthy, .faulty _ => stepped.openFault a
        | .faulty _, .healthy => stepped.becameHealthy a
        | .faulty .degraded, .faulty .fail => stepped.severityRaised a
        | .healthy, .healthy => stepped
        | .faulty .fail, .faulty _ => stepped
        | .faulty .degraded, .faulty .degraded => stepped)
    ∧ (h = x.health → s.sample a = { s with assets := s.assets.put a { x with integrator := i } })

/-- The creation of a record (R99, R100, R103, R120, R135): under the first ID from next-ID on that no record holds, OPEN
with the asset's severity and the present time; its OPENED notice with n 0; one open counted; with a child, n the FAULTY
descendants that already name the asset, outside the rebuild, and an ABSORB walk queued. A freed record serves the head of
the waiting list so: it leaves the list and its record is created (R111). -/
def Obligations.RecordCreation : Prop :=
  (∀ s : State, (s.waiting = [] → s.serveWaiting = s)
    ∧ ∀ (b : Nat) (rest : List Nat), s.waiting = b :: rest →
      s.serveWaiting = ({ s with
        waiting := rest, assets := s.assets.adjust b fun x => { x with waiting := false } } : State).createRecord b)
  ∧ ∀ (s : State) (a : Nat) (x : Asset) (severity : Severity), s.Canonical → 1 ≤ s.nextId → s.nextId ≤ 65535 →
    s.records.length < 512 → s.asset? a = some x → x.health = .faulty severity →
    let after (i : Nat) : Nat := if i = 65535 then 1 else i + 1
    let p := s.faultProfile x.config.faultProfile
    let n : Nat :=
      if s.mode = .entering ∨ s.childrenOf a = [] then 0
      else ((s.descendantsOf a).filter fun d =>
        ((s.asset? d).map fun y => decide (y.health ≠ .healthy ∧ y.absorbedBy = some a)) = some true).length
    let record (n : Nat) : FaultRecord :=
      { asset := a, severity := severity, state := .opened, openedRun := s.time.runMinute,
        openedDay := s.time.dayMinute, steps := 0, minutes := 0, absorbed := n,
        urgency := urgencyOf p severity x.config.weight n 0, console := none,
        changeDue := urgencyOf p severity x.config.weight n 0 ≠ urgencyOf p severity x.config.weight 0 0 }
    ∃ passed : Nat,
      let id := after^[passed] s.nextId
      passed ≤ s.records.length ∧ (∀ j < passed, s.records.has (after^[j] s.nextId) = true) ∧ s.records.has id = false
      ∧ 1 ≤ id ∧ id ≤ 65535
      ∧ s.createRecord a = { s with
          records := s.records.put id (record n),
          nextId := after id,
          assets := s.assets.adjust a fun x => { x with faultId := some id },
          storm := { s.storm with opens := min 65535 (s.storm.opens + 1) },
          trunk := s.trunk.place ⟨s.trunk.node, .notice (.opened ((record 0).summary id))⟩,
          walkList := if s.childrenOf a = [] then s.walkList else queueEntry s.walkList a .absorb }

/-- The requests of samples and walks (R102, R104 to R109): a fault opens a record, waits at a full table, or is counted
by its absorber's record; a recovery clears the record and serves the waiting list, is counted off, or ends the wait; a
raise or lower changes n, an n of 0 staying, and U with its change-due flag; a severity raise makes the record FAIL with
change-due set whatever U does. -/
def Obligations.FaultRequests : Prop :=
  ∀ (s : State) (a : Nat) (x : Asset), s.Canonical → s.asset? a = some x →
    let urgency (r : FaultRecord) (severity : Severity) (n : Nat) : Nat :=
      urgencyOf (s.faultProfile x.config.faultProfile) severity x.config.weight n r.steps
    let changed (id : Nat) (r : FaultRecord) : State := { s with records := s.records.put id r }
    (∀ z : Nat, x.absorbedBy = some z → s.openFault a = s.raiseOn z)
    ∧ (x.absorbedBy = none → s.records.length < 512 → s.openFault a = s.createRecord a)
    ∧ (x.absorbedBy = none → 512 ≤ s.records.length → s.openFault a = { s with
        waiting := s.waiting ++ [a], assets := s.assets.adjust a fun x => { x with waiting := true } })
    ∧ (∀ id : Nat, x.faultId = some id → s.becameHealthy a = ({ s with
        records := s.records.del id,
        assets := s.assets.adjust a fun x => { x with faultId := none },
        trunk := s.trunk.place ⟨s.trunk.node, .notice (.cleared id a false)⟩,
        walkList := if s.childrenOf a = [] then s.walkList else queueEntry s.walkList a .release } : State).serveWaiting)
    ∧ (∀ z : Nat, x.faultId = none → x.absorbedBy = some z → s.becameHealthy a = s.lowerOn z)
    ∧ (x.faultId = none → x.absorbedBy = none → s.becameHealthy a =
        if x.waiting then { s with
          waiting := s.waiting.filter (fun b => b ≠ a), assets := s.assets.adjust a fun x => { x with waiting := false } }
        else s)
    ∧ (x.faultId = none → s.raiseOn a = s ∧ s.lowerOn a = s ∧ s.severityRaised a = s)
    ∧ ∀ (id : Nat) (r : FaultRecord), x.faultId = some id → s.records.get? id = some r → r.asset = a →
      s.raiseOn a = changed id { r with
        absorbed := r.absorbed + 1, urgency := urgency r r.severity (r.absorbed + 1),
        changeDue := r.changeDue || urgency r r.severity (r.absorbed + 1) ≠ r.urgency }
      ∧ s.lowerOn a = changed id { r with
        absorbed := r.absorbed - 1, urgency := urgency r r.severity (r.absorbed - 1),
        changeDue := r.changeDue || urgency r r.severity (r.absorbed - 1) ≠ r.urgency }
      ∧ s.severityRaised a = changed id { r with
        severity := .fail, urgency := urgency r .fail r.absorbed, changeDue := true }

/-! ## Laws every step keeps -/

/-- Every step keeps the tables in canonical form, the point map within its capacities, the walk list at one entry per
root, and the station addresses of a line distinct (R21, R45, R98, R127). -/
def Obligations.TablesSoundKept : Prop :=
  ∀ s t : State, s.TablesSound → step s = .next t → t.TablesSound

/-- Every step keeps every field within its range, in the units and in the keyed tables, but for I and n, which have
laws of their own (R2, R3, R17, R21, R29, R35, R39, R65, R66, R79, R80, R82, R99, R100, R143, R147, R161, R166, R171,
R180, R181, R188). A loop profile and window fields are present exactly for a LOOP (log 17); a line that is OFF or
HALTED has no work in hand and holds no bytes (R37, R41). -/
def Obligations.RangesKept : Prop :=
  ∀ s t : State, s.Canonical → s.InRange → step s = .next t → t.InRange

/-- Every step keeps every integrator within 0..Imax of its asset's current fault profile (R70, R7, R10, R67). -/
def Obligations.IntegratorsBoundedKept : Prop :=
  ∀ s t : State, s.Canonical → s.IntegratorsBounded → step s = .next t → t.IntegratorsBounded

/-- Every step keeps the law of the fault table: at most 512 records, under IDs 1..65535, each named by its FAULTY and
unabsorbed asset with its severity; an asset waits exactly while it is on the waiting list, FAULTY and unabsorbed; a
FAULTY asset holds a record, is absorbed, or waits; the list is empty while the table has room (R98 to R102, R110,
R111). -/
def Obligations.FaultLawKept : Prop :=
  ∀ s t : State, s.Canonical → s.FaultLaw → step s = .next t → t.FaultLaw

/-- Every step keeps every record's U equal to the formula of R143 on its current inputs. s is at most 15 in every record
(R99, R147), which every step keeps too. -/
def Obligations.UrgencyLawKept : Prop :=
  (∀ (p : FaultProfile) (w n steps : Nat),
    urgencyOf p .fail w n steps = min 65535 (p.baseFail * w / 16 + min n 255 * p.perAbsorbed + steps * p.perStep)
    ∧ urgencyOf p .degraded w n steps
      = min 65535 (p.baseDegraded * w / 16 + min n 255 * p.perAbsorbed + steps * p.perStep))
  ∧ ∀ s t : State, s.Canonical → s.FaultLaw → s.UrgencyLaw → (∀ e ∈ s.records, e.2.steps ≤ 15) → step s = .next t →
    t.UrgencyLaw ∧ ∀ e ∈ t.records, e.2.steps ≤ 15

/-- Every step keeps the tree: each parent is a present asset, and every asset lies at depth 1..6, without a cycle (R4,
R5, R12). -/
def Obligations.TreeLawKept : Prop :=
  ∀ s t : State, s.Canonical → s.TreeLaw → step s = .next t → t.TreeLaw

end
end

