-- ==== Sys2Proof/Laws/State.lean ====
section
/-! SUPPORT. What each setter of State leaves: one lemma for each field and each accessor, so that no proof unfolds a
record update. -/

namespace Sys2Proof.Machine

/-! ## setResetHeld -/

@[simp] theorem State.setResetHeld_resetHeld (s : State) (x : Bool) : (s.setResetHeld x).resetHeld = x := rfl
@[simp] theorem State.setResetHeld_mode (s : State) (x : Bool) : (s.setResetHeld x).mode = s.mode := rfl
@[simp] theorem State.setResetHeld_time (s : State) (x : Bool) : (s.setResetHeld x).time = s.time := rfl
@[simp] theorem State.setResetHeld_owed (s : State) (x : Bool) : (s.setResetHeld x).owed = s.owed := rfl
@[simp] theorem State.setResetHeld_assets (s : State) (x : Bool) : (s.setResetHeld x).assets = s.assets := rfl
@[simp] theorem State.setResetHeld_outstations (s : State) (x : Bool) : (s.setResetHeld x).outstations = s.outstations := rfl
@[simp] theorem State.setResetHeld_lines (s : State) (x : Bool) : (s.setResetHeld x).lines = s.lines := rfl
@[simp] theorem State.setResetHeld_points (s : State) (x : Bool) : (s.setResetHeld x).points = s.points := rfl
@[simp] theorem State.setResetHeld_drops (s : State) (x : Bool) : (s.setResetHeld x).drops = s.drops := rfl
@[simp] theorem State.setResetHeld_faultProfiles (s : State) (x : Bool) : (s.setResetHeld x).faultProfiles = s.faultProfiles := rfl
@[simp] theorem State.setResetHeld_loopProfiles (s : State) (x : Bool) : (s.setResetHeld x).loopProfiles = s.loopProfiles := rfl
@[simp] theorem State.setResetHeld_records (s : State) (x : Bool) : (s.setResetHeld x).records = s.records := rfl
@[simp] theorem State.setResetHeld_nextId (s : State) (x : Bool) : (s.setResetHeld x).nextId = s.nextId := rfl
@[simp] theorem State.setResetHeld_waiting (s : State) (x : Bool) : (s.setResetHeld x).waiting = s.waiting := rfl
@[simp] theorem State.setResetHeld_walkList (s : State) (x : Bool) : (s.setResetHeld x).walkList = s.walkList := rfl
@[simp] theorem State.setResetHeld_walk (s : State) (x : Bool) : (s.setResetHeld x).walk = s.walk := rfl
@[simp] theorem State.setResetHeld_rebuild (s : State) (x : Bool) : (s.setResetHeld x).rebuild = s.rebuild := rfl
@[simp] theorem State.setResetHeld_storm (s : State) (x : Bool) : (s.setResetHeld x).storm = s.storm := rfl
@[simp] theorem State.setResetHeld_beacons (s : State) (x : Bool) : (s.setResetHeld x).beacons = s.beacons := rfl
@[simp] theorem State.setResetHeld_trunk (s : State) (x : Bool) : (s.setResetHeld x).trunk = s.trunk := rfl
@[simp] theorem State.setResetHeld_freeCount (s : State) (x : Bool) : (s.setResetHeld x).freeCount = s.freeCount := rfl
@[simp] theorem State.setResetHeld_pending (s : State) (x : Bool) : (s.setResetHeld x).pending = s.pending := rfl

/-! ## setMode -/

@[simp] theorem State.setMode_resetHeld (s : State) (x : Mode) : (s.setMode x).resetHeld = s.resetHeld := rfl
@[simp] theorem State.setMode_mode (s : State) (x : Mode) : (s.setMode x).mode = x := rfl
@[simp] theorem State.setMode_time (s : State) (x : Mode) : (s.setMode x).time = s.time := rfl
@[simp] theorem State.setMode_owed (s : State) (x : Mode) : (s.setMode x).owed = s.owed := rfl
@[simp] theorem State.setMode_assets (s : State) (x : Mode) : (s.setMode x).assets = s.assets := rfl
@[simp] theorem State.setMode_outstations (s : State) (x : Mode) : (s.setMode x).outstations = s.outstations := rfl
@[simp] theorem State.setMode_lines (s : State) (x : Mode) : (s.setMode x).lines = s.lines := rfl
@[simp] theorem State.setMode_points (s : State) (x : Mode) : (s.setMode x).points = s.points := rfl
@[simp] theorem State.setMode_drops (s : State) (x : Mode) : (s.setMode x).drops = s.drops := rfl
@[simp] theorem State.setMode_faultProfiles (s : State) (x : Mode) : (s.setMode x).faultProfiles = s.faultProfiles := rfl
@[simp] theorem State.setMode_loopProfiles (s : State) (x : Mode) : (s.setMode x).loopProfiles = s.loopProfiles := rfl
@[simp] theorem State.setMode_records (s : State) (x : Mode) : (s.setMode x).records = s.records := rfl
@[simp] theorem State.setMode_nextId (s : State) (x : Mode) : (s.setMode x).nextId = s.nextId := rfl
@[simp] theorem State.setMode_waiting (s : State) (x : Mode) : (s.setMode x).waiting = s.waiting := rfl
@[simp] theorem State.setMode_walkList (s : State) (x : Mode) : (s.setMode x).walkList = s.walkList := rfl
@[simp] theorem State.setMode_walk (s : State) (x : Mode) : (s.setMode x).walk = s.walk := rfl
@[simp] theorem State.setMode_rebuild (s : State) (x : Mode) : (s.setMode x).rebuild = s.rebuild := rfl
@[simp] theorem State.setMode_storm (s : State) (x : Mode) : (s.setMode x).storm = s.storm := rfl
@[simp] theorem State.setMode_beacons (s : State) (x : Mode) : (s.setMode x).beacons = s.beacons := rfl
@[simp] theorem State.setMode_trunk (s : State) (x : Mode) : (s.setMode x).trunk = s.trunk := rfl
@[simp] theorem State.setMode_freeCount (s : State) (x : Mode) : (s.setMode x).freeCount = s.freeCount := rfl
@[simp] theorem State.setMode_pending (s : State) (x : Mode) : (s.setMode x).pending = s.pending := rfl

/-! ## setTime -/

@[simp] theorem State.setTime_resetHeld (s : State) (x : TimeBase) : (s.setTime x).resetHeld = s.resetHeld := rfl
@[simp] theorem State.setTime_mode (s : State) (x : TimeBase) : (s.setTime x).mode = s.mode := rfl
@[simp] theorem State.setTime_time (s : State) (x : TimeBase) : (s.setTime x).time = x := rfl
@[simp] theorem State.setTime_owed (s : State) (x : TimeBase) : (s.setTime x).owed = s.owed := rfl
@[simp] theorem State.setTime_assets (s : State) (x : TimeBase) : (s.setTime x).assets = s.assets := rfl
@[simp] theorem State.setTime_outstations (s : State) (x : TimeBase) : (s.setTime x).outstations = s.outstations := rfl
@[simp] theorem State.setTime_lines (s : State) (x : TimeBase) : (s.setTime x).lines = s.lines := rfl
@[simp] theorem State.setTime_points (s : State) (x : TimeBase) : (s.setTime x).points = s.points := rfl
@[simp] theorem State.setTime_drops (s : State) (x : TimeBase) : (s.setTime x).drops = s.drops := rfl
@[simp] theorem State.setTime_faultProfiles (s : State) (x : TimeBase) : (s.setTime x).faultProfiles = s.faultProfiles := rfl
@[simp] theorem State.setTime_loopProfiles (s : State) (x : TimeBase) : (s.setTime x).loopProfiles = s.loopProfiles := rfl
@[simp] theorem State.setTime_records (s : State) (x : TimeBase) : (s.setTime x).records = s.records := rfl
@[simp] theorem State.setTime_nextId (s : State) (x : TimeBase) : (s.setTime x).nextId = s.nextId := rfl
@[simp] theorem State.setTime_waiting (s : State) (x : TimeBase) : (s.setTime x).waiting = s.waiting := rfl
@[simp] theorem State.setTime_walkList (s : State) (x : TimeBase) : (s.setTime x).walkList = s.walkList := rfl
@[simp] theorem State.setTime_walk (s : State) (x : TimeBase) : (s.setTime x).walk = s.walk := rfl
@[simp] theorem State.setTime_rebuild (s : State) (x : TimeBase) : (s.setTime x).rebuild = s.rebuild := rfl
@[simp] theorem State.setTime_storm (s : State) (x : TimeBase) : (s.setTime x).storm = s.storm := rfl
@[simp] theorem State.setTime_beacons (s : State) (x : TimeBase) : (s.setTime x).beacons = s.beacons := rfl
@[simp] theorem State.setTime_trunk (s : State) (x : TimeBase) : (s.setTime x).trunk = s.trunk := rfl
@[simp] theorem State.setTime_freeCount (s : State) (x : TimeBase) : (s.setTime x).freeCount = s.freeCount := rfl
@[simp] theorem State.setTime_pending (s : State) (x : TimeBase) : (s.setTime x).pending = s.pending := rfl

/-! ## setOwed -/

@[simp] theorem State.setOwed_resetHeld (s : State) (x : List TickWork) : (s.setOwed x).resetHeld = s.resetHeld := rfl
@[simp] theorem State.setOwed_mode (s : State) (x : List TickWork) : (s.setOwed x).mode = s.mode := rfl
@[simp] theorem State.setOwed_time (s : State) (x : List TickWork) : (s.setOwed x).time = s.time := rfl
@[simp] theorem State.setOwed_owed (s : State) (x : List TickWork) : (s.setOwed x).owed = x := rfl
@[simp] theorem State.setOwed_assets (s : State) (x : List TickWork) : (s.setOwed x).assets = s.assets := rfl
@[simp] theorem State.setOwed_outstations (s : State) (x : List TickWork) : (s.setOwed x).outstations = s.outstations := rfl
@[simp] theorem State.setOwed_lines (s : State) (x : List TickWork) : (s.setOwed x).lines = s.lines := rfl
@[simp] theorem State.setOwed_points (s : State) (x : List TickWork) : (s.setOwed x).points = s.points := rfl
@[simp] theorem State.setOwed_drops (s : State) (x : List TickWork) : (s.setOwed x).drops = s.drops := rfl
@[simp] theorem State.setOwed_faultProfiles (s : State) (x : List TickWork) : (s.setOwed x).faultProfiles = s.faultProfiles := rfl
@[simp] theorem State.setOwed_loopProfiles (s : State) (x : List TickWork) : (s.setOwed x).loopProfiles = s.loopProfiles := rfl
@[simp] theorem State.setOwed_records (s : State) (x : List TickWork) : (s.setOwed x).records = s.records := rfl
@[simp] theorem State.setOwed_nextId (s : State) (x : List TickWork) : (s.setOwed x).nextId = s.nextId := rfl
@[simp] theorem State.setOwed_waiting (s : State) (x : List TickWork) : (s.setOwed x).waiting = s.waiting := rfl
@[simp] theorem State.setOwed_walkList (s : State) (x : List TickWork) : (s.setOwed x).walkList = s.walkList := rfl
@[simp] theorem State.setOwed_walk (s : State) (x : List TickWork) : (s.setOwed x).walk = s.walk := rfl
@[simp] theorem State.setOwed_rebuild (s : State) (x : List TickWork) : (s.setOwed x).rebuild = s.rebuild := rfl
@[simp] theorem State.setOwed_storm (s : State) (x : List TickWork) : (s.setOwed x).storm = s.storm := rfl
@[simp] theorem State.setOwed_beacons (s : State) (x : List TickWork) : (s.setOwed x).beacons = s.beacons := rfl
@[simp] theorem State.setOwed_trunk (s : State) (x : List TickWork) : (s.setOwed x).trunk = s.trunk := rfl
@[simp] theorem State.setOwed_freeCount (s : State) (x : List TickWork) : (s.setOwed x).freeCount = s.freeCount := rfl
@[simp] theorem State.setOwed_pending (s : State) (x : List TickWork) : (s.setOwed x).pending = s.pending := rfl

/-! ## setAssets -/

@[simp] theorem State.setAssets_resetHeld (s : State) (x : Table Asset) : (s.setAssets x).resetHeld = s.resetHeld := rfl
@[simp] theorem State.setAssets_mode (s : State) (x : Table Asset) : (s.setAssets x).mode = s.mode := rfl
@[simp] theorem State.setAssets_time (s : State) (x : Table Asset) : (s.setAssets x).time = s.time := rfl
@[simp] theorem State.setAssets_owed (s : State) (x : Table Asset) : (s.setAssets x).owed = s.owed := rfl
@[simp] theorem State.setAssets_assets (s : State) (x : Table Asset) : (s.setAssets x).assets = x := rfl
@[simp] theorem State.setAssets_outstations (s : State) (x : Table Asset) : (s.setAssets x).outstations = s.outstations := rfl
@[simp] theorem State.setAssets_lines (s : State) (x : Table Asset) : (s.setAssets x).lines = s.lines := rfl
@[simp] theorem State.setAssets_points (s : State) (x : Table Asset) : (s.setAssets x).points = s.points := rfl
@[simp] theorem State.setAssets_drops (s : State) (x : Table Asset) : (s.setAssets x).drops = s.drops := rfl
@[simp] theorem State.setAssets_faultProfiles (s : State) (x : Table Asset) : (s.setAssets x).faultProfiles = s.faultProfiles := rfl
@[simp] theorem State.setAssets_loopProfiles (s : State) (x : Table Asset) : (s.setAssets x).loopProfiles = s.loopProfiles := rfl
@[simp] theorem State.setAssets_records (s : State) (x : Table Asset) : (s.setAssets x).records = s.records := rfl
@[simp] theorem State.setAssets_nextId (s : State) (x : Table Asset) : (s.setAssets x).nextId = s.nextId := rfl
@[simp] theorem State.setAssets_waiting (s : State) (x : Table Asset) : (s.setAssets x).waiting = s.waiting := rfl
@[simp] theorem State.setAssets_walkList (s : State) (x : Table Asset) : (s.setAssets x).walkList = s.walkList := rfl
@[simp] theorem State.setAssets_walk (s : State) (x : Table Asset) : (s.setAssets x).walk = s.walk := rfl
@[simp] theorem State.setAssets_rebuild (s : State) (x : Table Asset) : (s.setAssets x).rebuild = s.rebuild := rfl
@[simp] theorem State.setAssets_storm (s : State) (x : Table Asset) : (s.setAssets x).storm = s.storm := rfl
@[simp] theorem State.setAssets_beacons (s : State) (x : Table Asset) : (s.setAssets x).beacons = s.beacons := rfl
@[simp] theorem State.setAssets_trunk (s : State) (x : Table Asset) : (s.setAssets x).trunk = s.trunk := rfl
@[simp] theorem State.setAssets_freeCount (s : State) (x : Table Asset) : (s.setAssets x).freeCount = s.freeCount := rfl
@[simp] theorem State.setAssets_pending (s : State) (x : Table Asset) : (s.setAssets x).pending = s.pending := rfl

/-! ## setOutstations -/

@[simp] theorem State.setOutstations_resetHeld (s : State) (x : Table Outstation) : (s.setOutstations x).resetHeld = s.resetHeld := rfl
@[simp] theorem State.setOutstations_mode (s : State) (x : Table Outstation) : (s.setOutstations x).mode = s.mode := rfl
@[simp] theorem State.setOutstations_time (s : State) (x : Table Outstation) : (s.setOutstations x).time = s.time := rfl
@[simp] theorem State.setOutstations_owed (s : State) (x : Table Outstation) : (s.setOutstations x).owed = s.owed := rfl
@[simp] theorem State.setOutstations_assets (s : State) (x : Table Outstation) : (s.setOutstations x).assets = s.assets := rfl
@[simp] theorem State.setOutstations_outstations (s : State) (x : Table Outstation) : (s.setOutstations x).outstations = x := rfl
@[simp] theorem State.setOutstations_lines (s : State) (x : Table Outstation) : (s.setOutstations x).lines = s.lines := rfl
@[simp] theorem State.setOutstations_points (s : State) (x : Table Outstation) : (s.setOutstations x).points = s.points := rfl
@[simp] theorem State.setOutstations_drops (s : State) (x : Table Outstation) : (s.setOutstations x).drops = s.drops := rfl
@[simp] theorem State.setOutstations_faultProfiles (s : State) (x : Table Outstation) : (s.setOutstations x).faultProfiles = s.faultProfiles := rfl
@[simp] theorem State.setOutstations_loopProfiles (s : State) (x : Table Outstation) : (s.setOutstations x).loopProfiles = s.loopProfiles := rfl
@[simp] theorem State.setOutstations_records (s : State) (x : Table Outstation) : (s.setOutstations x).records = s.records := rfl
@[simp] theorem State.setOutstations_nextId (s : State) (x : Table Outstation) : (s.setOutstations x).nextId = s.nextId := rfl
@[simp] theorem State.setOutstations_waiting (s : State) (x : Table Outstation) : (s.setOutstations x).waiting = s.waiting := rfl
@[simp] theorem State.setOutstations_walkList (s : State) (x : Table Outstation) : (s.setOutstations x).walkList = s.walkList := rfl
@[simp] theorem State.setOutstations_walk (s : State) (x : Table Outstation) : (s.setOutstations x).walk = s.walk := rfl
@[simp] theorem State.setOutstations_rebuild (s : State) (x : Table Outstation) : (s.setOutstations x).rebuild = s.rebuild := rfl
@[simp] theorem State.setOutstations_storm (s : State) (x : Table Outstation) : (s.setOutstations x).storm = s.storm := rfl
@[simp] theorem State.setOutstations_beacons (s : State) (x : Table Outstation) : (s.setOutstations x).beacons = s.beacons := rfl
@[simp] theorem State.setOutstations_trunk (s : State) (x : Table Outstation) : (s.setOutstations x).trunk = s.trunk := rfl
@[simp] theorem State.setOutstations_freeCount (s : State) (x : Table Outstation) : (s.setOutstations x).freeCount = s.freeCount := rfl
@[simp] theorem State.setOutstations_pending (s : State) (x : Table Outstation) : (s.setOutstations x).pending = s.pending := rfl

/-! ## setLines -/

@[simp] theorem State.setLines_resetHeld (s : State) (x : Vector Line 4) : (s.setLines x).resetHeld = s.resetHeld := rfl
@[simp] theorem State.setLines_mode (s : State) (x : Vector Line 4) : (s.setLines x).mode = s.mode := rfl
@[simp] theorem State.setLines_time (s : State) (x : Vector Line 4) : (s.setLines x).time = s.time := rfl
@[simp] theorem State.setLines_owed (s : State) (x : Vector Line 4) : (s.setLines x).owed = s.owed := rfl
@[simp] theorem State.setLines_assets (s : State) (x : Vector Line 4) : (s.setLines x).assets = s.assets := rfl
@[simp] theorem State.setLines_outstations (s : State) (x : Vector Line 4) : (s.setLines x).outstations = s.outstations := rfl
@[simp] theorem State.setLines_lines (s : State) (x : Vector Line 4) : (s.setLines x).lines = x := rfl
@[simp] theorem State.setLines_points (s : State) (x : Vector Line 4) : (s.setLines x).points = s.points := rfl
@[simp] theorem State.setLines_drops (s : State) (x : Vector Line 4) : (s.setLines x).drops = s.drops := rfl
@[simp] theorem State.setLines_faultProfiles (s : State) (x : Vector Line 4) : (s.setLines x).faultProfiles = s.faultProfiles := rfl
@[simp] theorem State.setLines_loopProfiles (s : State) (x : Vector Line 4) : (s.setLines x).loopProfiles = s.loopProfiles := rfl
@[simp] theorem State.setLines_records (s : State) (x : Vector Line 4) : (s.setLines x).records = s.records := rfl
@[simp] theorem State.setLines_nextId (s : State) (x : Vector Line 4) : (s.setLines x).nextId = s.nextId := rfl
@[simp] theorem State.setLines_waiting (s : State) (x : Vector Line 4) : (s.setLines x).waiting = s.waiting := rfl
@[simp] theorem State.setLines_walkList (s : State) (x : Vector Line 4) : (s.setLines x).walkList = s.walkList := rfl
@[simp] theorem State.setLines_walk (s : State) (x : Vector Line 4) : (s.setLines x).walk = s.walk := rfl
@[simp] theorem State.setLines_rebuild (s : State) (x : Vector Line 4) : (s.setLines x).rebuild = s.rebuild := rfl
@[simp] theorem State.setLines_storm (s : State) (x : Vector Line 4) : (s.setLines x).storm = s.storm := rfl
@[simp] theorem State.setLines_beacons (s : State) (x : Vector Line 4) : (s.setLines x).beacons = s.beacons := rfl
@[simp] theorem State.setLines_trunk (s : State) (x : Vector Line 4) : (s.setLines x).trunk = s.trunk := rfl
@[simp] theorem State.setLines_freeCount (s : State) (x : Vector Line 4) : (s.setLines x).freeCount = s.freeCount := rfl
@[simp] theorem State.setLines_pending (s : State) (x : Vector Line 4) : (s.setLines x).pending = s.pending := rfl

/-! ## setPoints -/

@[simp] theorem State.setPoints_resetHeld (s : State) (x : Table Point) : (s.setPoints x).resetHeld = s.resetHeld := rfl
@[simp] theorem State.setPoints_mode (s : State) (x : Table Point) : (s.setPoints x).mode = s.mode := rfl
@[simp] theorem State.setPoints_time (s : State) (x : Table Point) : (s.setPoints x).time = s.time := rfl
@[simp] theorem State.setPoints_owed (s : State) (x : Table Point) : (s.setPoints x).owed = s.owed := rfl
@[simp] theorem State.setPoints_assets (s : State) (x : Table Point) : (s.setPoints x).assets = s.assets := rfl
@[simp] theorem State.setPoints_outstations (s : State) (x : Table Point) : (s.setPoints x).outstations = s.outstations := rfl
@[simp] theorem State.setPoints_lines (s : State) (x : Table Point) : (s.setPoints x).lines = s.lines := rfl
@[simp] theorem State.setPoints_points (s : State) (x : Table Point) : (s.setPoints x).points = x := rfl
@[simp] theorem State.setPoints_drops (s : State) (x : Table Point) : (s.setPoints x).drops = s.drops := rfl
@[simp] theorem State.setPoints_faultProfiles (s : State) (x : Table Point) : (s.setPoints x).faultProfiles = s.faultProfiles := rfl
@[simp] theorem State.setPoints_loopProfiles (s : State) (x : Table Point) : (s.setPoints x).loopProfiles = s.loopProfiles := rfl
@[simp] theorem State.setPoints_records (s : State) (x : Table Point) : (s.setPoints x).records = s.records := rfl
@[simp] theorem State.setPoints_nextId (s : State) (x : Table Point) : (s.setPoints x).nextId = s.nextId := rfl
@[simp] theorem State.setPoints_waiting (s : State) (x : Table Point) : (s.setPoints x).waiting = s.waiting := rfl
@[simp] theorem State.setPoints_walkList (s : State) (x : Table Point) : (s.setPoints x).walkList = s.walkList := rfl
@[simp] theorem State.setPoints_walk (s : State) (x : Table Point) : (s.setPoints x).walk = s.walk := rfl
@[simp] theorem State.setPoints_rebuild (s : State) (x : Table Point) : (s.setPoints x).rebuild = s.rebuild := rfl
@[simp] theorem State.setPoints_storm (s : State) (x : Table Point) : (s.setPoints x).storm = s.storm := rfl
@[simp] theorem State.setPoints_beacons (s : State) (x : Table Point) : (s.setPoints x).beacons = s.beacons := rfl
@[simp] theorem State.setPoints_trunk (s : State) (x : Table Point) : (s.setPoints x).trunk = s.trunk := rfl
@[simp] theorem State.setPoints_freeCount (s : State) (x : Table Point) : (s.setPoints x).freeCount = s.freeCount := rfl
@[simp] theorem State.setPoints_pending (s : State) (x : Table Point) : (s.setPoints x).pending = s.pending := rfl

/-! ## setDrops -/

@[simp] theorem State.setDrops_resetHeld (s : State) (x : Nat) : (s.setDrops x).resetHeld = s.resetHeld := rfl
@[simp] theorem State.setDrops_mode (s : State) (x : Nat) : (s.setDrops x).mode = s.mode := rfl
@[simp] theorem State.setDrops_time (s : State) (x : Nat) : (s.setDrops x).time = s.time := rfl
@[simp] theorem State.setDrops_owed (s : State) (x : Nat) : (s.setDrops x).owed = s.owed := rfl
@[simp] theorem State.setDrops_assets (s : State) (x : Nat) : (s.setDrops x).assets = s.assets := rfl
@[simp] theorem State.setDrops_outstations (s : State) (x : Nat) : (s.setDrops x).outstations = s.outstations := rfl
@[simp] theorem State.setDrops_lines (s : State) (x : Nat) : (s.setDrops x).lines = s.lines := rfl
@[simp] theorem State.setDrops_points (s : State) (x : Nat) : (s.setDrops x).points = s.points := rfl
@[simp] theorem State.setDrops_drops (s : State) (x : Nat) : (s.setDrops x).drops = x := rfl
@[simp] theorem State.setDrops_faultProfiles (s : State) (x : Nat) : (s.setDrops x).faultProfiles = s.faultProfiles := rfl
@[simp] theorem State.setDrops_loopProfiles (s : State) (x : Nat) : (s.setDrops x).loopProfiles = s.loopProfiles := rfl
@[simp] theorem State.setDrops_records (s : State) (x : Nat) : (s.setDrops x).records = s.records := rfl
@[simp] theorem State.setDrops_nextId (s : State) (x : Nat) : (s.setDrops x).nextId = s.nextId := rfl
@[simp] theorem State.setDrops_waiting (s : State) (x : Nat) : (s.setDrops x).waiting = s.waiting := rfl
@[simp] theorem State.setDrops_walkList (s : State) (x : Nat) : (s.setDrops x).walkList = s.walkList := rfl
@[simp] theorem State.setDrops_walk (s : State) (x : Nat) : (s.setDrops x).walk = s.walk := rfl
@[simp] theorem State.setDrops_rebuild (s : State) (x : Nat) : (s.setDrops x).rebuild = s.rebuild := rfl
@[simp] theorem State.setDrops_storm (s : State) (x : Nat) : (s.setDrops x).storm = s.storm := rfl
@[simp] theorem State.setDrops_beacons (s : State) (x : Nat) : (s.setDrops x).beacons = s.beacons := rfl
@[simp] theorem State.setDrops_trunk (s : State) (x : Nat) : (s.setDrops x).trunk = s.trunk := rfl
@[simp] theorem State.setDrops_freeCount (s : State) (x : Nat) : (s.setDrops x).freeCount = s.freeCount := rfl
@[simp] theorem State.setDrops_pending (s : State) (x : Nat) : (s.setDrops x).pending = s.pending := rfl

/-! ## setFaultProfiles -/

@[simp] theorem State.setFaultProfiles_resetHeld (s : State) (x : Vector FaultProfile 16) : (s.setFaultProfiles x).resetHeld = s.resetHeld := rfl
@[simp] theorem State.setFaultProfiles_mode (s : State) (x : Vector FaultProfile 16) : (s.setFaultProfiles x).mode = s.mode := rfl
@[simp] theorem State.setFaultProfiles_time (s : State) (x : Vector FaultProfile 16) : (s.setFaultProfiles x).time = s.time := rfl
@[simp] theorem State.setFaultProfiles_owed (s : State) (x : Vector FaultProfile 16) : (s.setFaultProfiles x).owed = s.owed := rfl
@[simp] theorem State.setFaultProfiles_assets (s : State) (x : Vector FaultProfile 16) : (s.setFaultProfiles x).assets = s.assets := rfl
@[simp] theorem State.setFaultProfiles_outstations (s : State) (x : Vector FaultProfile 16) : (s.setFaultProfiles x).outstations = s.outstations := rfl
@[simp] theorem State.setFaultProfiles_lines (s : State) (x : Vector FaultProfile 16) : (s.setFaultProfiles x).lines = s.lines := rfl
@[simp] theorem State.setFaultProfiles_points (s : State) (x : Vector FaultProfile 16) : (s.setFaultProfiles x).points = s.points := rfl
@[simp] theorem State.setFaultProfiles_drops (s : State) (x : Vector FaultProfile 16) : (s.setFaultProfiles x).drops = s.drops := rfl
@[simp] theorem State.setFaultProfiles_faultProfiles (s : State) (x : Vector FaultProfile 16) : (s.setFaultProfiles x).faultProfiles = x := rfl
@[simp] theorem State.setFaultProfiles_loopProfiles (s : State) (x : Vector FaultProfile 16) : (s.setFaultProfiles x).loopProfiles = s.loopProfiles := rfl
@[simp] theorem State.setFaultProfiles_records (s : State) (x : Vector FaultProfile 16) : (s.setFaultProfiles x).records = s.records := rfl
@[simp] theorem State.setFaultProfiles_nextId (s : State) (x : Vector FaultProfile 16) : (s.setFaultProfiles x).nextId = s.nextId := rfl
@[simp] theorem State.setFaultProfiles_waiting (s : State) (x : Vector FaultProfile 16) : (s.setFaultProfiles x).waiting = s.waiting := rfl
@[simp] theorem State.setFaultProfiles_walkList (s : State) (x : Vector FaultProfile 16) : (s.setFaultProfiles x).walkList = s.walkList := rfl
@[simp] theorem State.setFaultProfiles_walk (s : State) (x : Vector FaultProfile 16) : (s.setFaultProfiles x).walk = s.walk := rfl
@[simp] theorem State.setFaultProfiles_rebuild (s : State) (x : Vector FaultProfile 16) : (s.setFaultProfiles x).rebuild = s.rebuild := rfl
@[simp] theorem State.setFaultProfiles_storm (s : State) (x : Vector FaultProfile 16) : (s.setFaultProfiles x).storm = s.storm := rfl
@[simp] theorem State.setFaultProfiles_beacons (s : State) (x : Vector FaultProfile 16) : (s.setFaultProfiles x).beacons = s.beacons := rfl
@[simp] theorem State.setFaultProfiles_trunk (s : State) (x : Vector FaultProfile 16) : (s.setFaultProfiles x).trunk = s.trunk := rfl
@[simp] theorem State.setFaultProfiles_freeCount (s : State) (x : Vector FaultProfile 16) : (s.setFaultProfiles x).freeCount = s.freeCount := rfl
@[simp] theorem State.setFaultProfiles_pending (s : State) (x : Vector FaultProfile 16) : (s.setFaultProfiles x).pending = s.pending := rfl

/-! ## setLoopProfiles -/

@[simp] theorem State.setLoopProfiles_resetHeld (s : State) (x : Vector LoopProfile 8) : (s.setLoopProfiles x).resetHeld = s.resetHeld := rfl
@[simp] theorem State.setLoopProfiles_mode (s : State) (x : Vector LoopProfile 8) : (s.setLoopProfiles x).mode = s.mode := rfl
@[simp] theorem State.setLoopProfiles_time (s : State) (x : Vector LoopProfile 8) : (s.setLoopProfiles x).time = s.time := rfl
@[simp] theorem State.setLoopProfiles_owed (s : State) (x : Vector LoopProfile 8) : (s.setLoopProfiles x).owed = s.owed := rfl
@[simp] theorem State.setLoopProfiles_assets (s : State) (x : Vector LoopProfile 8) : (s.setLoopProfiles x).assets = s.assets := rfl
@[simp] theorem State.setLoopProfiles_outstations (s : State) (x : Vector LoopProfile 8) : (s.setLoopProfiles x).outstations = s.outstations := rfl
@[simp] theorem State.setLoopProfiles_lines (s : State) (x : Vector LoopProfile 8) : (s.setLoopProfiles x).lines = s.lines := rfl
@[simp] theorem State.setLoopProfiles_points (s : State) (x : Vector LoopProfile 8) : (s.setLoopProfiles x).points = s.points := rfl
@[simp] theorem State.setLoopProfiles_drops (s : State) (x : Vector LoopProfile 8) : (s.setLoopProfiles x).drops = s.drops := rfl
@[simp] theorem State.setLoopProfiles_faultProfiles (s : State) (x : Vector LoopProfile 8) : (s.setLoopProfiles x).faultProfiles = s.faultProfiles := rfl
@[simp] theorem State.setLoopProfiles_loopProfiles (s : State) (x : Vector LoopProfile 8) : (s.setLoopProfiles x).loopProfiles = x := rfl
@[simp] theorem State.setLoopProfiles_records (s : State) (x : Vector LoopProfile 8) : (s.setLoopProfiles x).records = s.records := rfl
@[simp] theorem State.setLoopProfiles_nextId (s : State) (x : Vector LoopProfile 8) : (s.setLoopProfiles x).nextId = s.nextId := rfl
@[simp] theorem State.setLoopProfiles_waiting (s : State) (x : Vector LoopProfile 8) : (s.setLoopProfiles x).waiting = s.waiting := rfl
@[simp] theorem State.setLoopProfiles_walkList (s : State) (x : Vector LoopProfile 8) : (s.setLoopProfiles x).walkList = s.walkList := rfl
@[simp] theorem State.setLoopProfiles_walk (s : State) (x : Vector LoopProfile 8) : (s.setLoopProfiles x).walk = s.walk := rfl
@[simp] theorem State.setLoopProfiles_rebuild (s : State) (x : Vector LoopProfile 8) : (s.setLoopProfiles x).rebuild = s.rebuild := rfl
@[simp] theorem State.setLoopProfiles_storm (s : State) (x : Vector LoopProfile 8) : (s.setLoopProfiles x).storm = s.storm := rfl
@[simp] theorem State.setLoopProfiles_beacons (s : State) (x : Vector LoopProfile 8) : (s.setLoopProfiles x).beacons = s.beacons := rfl
@[simp] theorem State.setLoopProfiles_trunk (s : State) (x : Vector LoopProfile 8) : (s.setLoopProfiles x).trunk = s.trunk := rfl
@[simp] theorem State.setLoopProfiles_freeCount (s : State) (x : Vector LoopProfile 8) : (s.setLoopProfiles x).freeCount = s.freeCount := rfl
@[simp] theorem State.setLoopProfiles_pending (s : State) (x : Vector LoopProfile 8) : (s.setLoopProfiles x).pending = s.pending := rfl

/-! ## setRecords -/

@[simp] theorem State.setRecords_resetHeld (s : State) (x : Table FaultRecord) : (s.setRecords x).resetHeld = s.resetHeld := rfl
@[simp] theorem State.setRecords_mode (s : State) (x : Table FaultRecord) : (s.setRecords x).mode = s.mode := rfl
@[simp] theorem State.setRecords_time (s : State) (x : Table FaultRecord) : (s.setRecords x).time = s.time := rfl
@[simp] theorem State.setRecords_owed (s : State) (x : Table FaultRecord) : (s.setRecords x).owed = s.owed := rfl
@[simp] theorem State.setRecords_assets (s : State) (x : Table FaultRecord) : (s.setRecords x).assets = s.assets := rfl
@[simp] theorem State.setRecords_outstations (s : State) (x : Table FaultRecord) : (s.setRecords x).outstations = s.outstations := rfl
@[simp] theorem State.setRecords_lines (s : State) (x : Table FaultRecord) : (s.setRecords x).lines = s.lines := rfl
@[simp] theorem State.setRecords_points (s : State) (x : Table FaultRecord) : (s.setRecords x).points = s.points := rfl
@[simp] theorem State.setRecords_drops (s : State) (x : Table FaultRecord) : (s.setRecords x).drops = s.drops := rfl
@[simp] theorem State.setRecords_faultProfiles (s : State) (x : Table FaultRecord) : (s.setRecords x).faultProfiles = s.faultProfiles := rfl
@[simp] theorem State.setRecords_loopProfiles (s : State) (x : Table FaultRecord) : (s.setRecords x).loopProfiles = s.loopProfiles := rfl
@[simp] theorem State.setRecords_records (s : State) (x : Table FaultRecord) : (s.setRecords x).records = x := rfl
@[simp] theorem State.setRecords_nextId (s : State) (x : Table FaultRecord) : (s.setRecords x).nextId = s.nextId := rfl
@[simp] theorem State.setRecords_waiting (s : State) (x : Table FaultRecord) : (s.setRecords x).waiting = s.waiting := rfl
@[simp] theorem State.setRecords_walkList (s : State) (x : Table FaultRecord) : (s.setRecords x).walkList = s.walkList := rfl
@[simp] theorem State.setRecords_walk (s : State) (x : Table FaultRecord) : (s.setRecords x).walk = s.walk := rfl
@[simp] theorem State.setRecords_rebuild (s : State) (x : Table FaultRecord) : (s.setRecords x).rebuild = s.rebuild := rfl
@[simp] theorem State.setRecords_storm (s : State) (x : Table FaultRecord) : (s.setRecords x).storm = s.storm := rfl
@[simp] theorem State.setRecords_beacons (s : State) (x : Table FaultRecord) : (s.setRecords x).beacons = s.beacons := rfl
@[simp] theorem State.setRecords_trunk (s : State) (x : Table FaultRecord) : (s.setRecords x).trunk = s.trunk := rfl
@[simp] theorem State.setRecords_freeCount (s : State) (x : Table FaultRecord) : (s.setRecords x).freeCount = s.freeCount := rfl
@[simp] theorem State.setRecords_pending (s : State) (x : Table FaultRecord) : (s.setRecords x).pending = s.pending := rfl

/-! ## setNextId -/

@[simp] theorem State.setNextId_resetHeld (s : State) (x : Nat) : (s.setNextId x).resetHeld = s.resetHeld := rfl
@[simp] theorem State.setNextId_mode (s : State) (x : Nat) : (s.setNextId x).mode = s.mode := rfl
@[simp] theorem State.setNextId_time (s : State) (x : Nat) : (s.setNextId x).time = s.time := rfl
@[simp] theorem State.setNextId_owed (s : State) (x : Nat) : (s.setNextId x).owed = s.owed := rfl
@[simp] theorem State.setNextId_assets (s : State) (x : Nat) : (s.setNextId x).assets = s.assets := rfl
@[simp] theorem State.setNextId_outstations (s : State) (x : Nat) : (s.setNextId x).outstations = s.outstations := rfl
@[simp] theorem State.setNextId_lines (s : State) (x : Nat) : (s.setNextId x).lines = s.lines := rfl
@[simp] theorem State.setNextId_points (s : State) (x : Nat) : (s.setNextId x).points = s.points := rfl
@[simp] theorem State.setNextId_drops (s : State) (x : Nat) : (s.setNextId x).drops = s.drops := rfl
@[simp] theorem State.setNextId_faultProfiles (s : State) (x : Nat) : (s.setNextId x).faultProfiles = s.faultProfiles := rfl
@[simp] theorem State.setNextId_loopProfiles (s : State) (x : Nat) : (s.setNextId x).loopProfiles = s.loopProfiles := rfl
@[simp] theorem State.setNextId_records (s : State) (x : Nat) : (s.setNextId x).records = s.records := rfl
@[simp] theorem State.setNextId_nextId (s : State) (x : Nat) : (s.setNextId x).nextId = x := rfl
@[simp] theorem State.setNextId_waiting (s : State) (x : Nat) : (s.setNextId x).waiting = s.waiting := rfl
@[simp] theorem State.setNextId_walkList (s : State) (x : Nat) : (s.setNextId x).walkList = s.walkList := rfl
@[simp] theorem State.setNextId_walk (s : State) (x : Nat) : (s.setNextId x).walk = s.walk := rfl
@[simp] theorem State.setNextId_rebuild (s : State) (x : Nat) : (s.setNextId x).rebuild = s.rebuild := rfl
@[simp] theorem State.setNextId_storm (s : State) (x : Nat) : (s.setNextId x).storm = s.storm := rfl
@[simp] theorem State.setNextId_beacons (s : State) (x : Nat) : (s.setNextId x).beacons = s.beacons := rfl
@[simp] theorem State.setNextId_trunk (s : State) (x : Nat) : (s.setNextId x).trunk = s.trunk := rfl
@[simp] theorem State.setNextId_freeCount (s : State) (x : Nat) : (s.setNextId x).freeCount = s.freeCount := rfl
@[simp] theorem State.setNextId_pending (s : State) (x : Nat) : (s.setNextId x).pending = s.pending := rfl

/-! ## setWaiting -/

@[simp] theorem State.setWaiting_resetHeld (s : State) (x : List Nat) : (s.setWaiting x).resetHeld = s.resetHeld := rfl
@[simp] theorem State.setWaiting_mode (s : State) (x : List Nat) : (s.setWaiting x).mode = s.mode := rfl
@[simp] theorem State.setWaiting_time (s : State) (x : List Nat) : (s.setWaiting x).time = s.time := rfl
@[simp] theorem State.setWaiting_owed (s : State) (x : List Nat) : (s.setWaiting x).owed = s.owed := rfl
@[simp] theorem State.setWaiting_assets (s : State) (x : List Nat) : (s.setWaiting x).assets = s.assets := rfl
@[simp] theorem State.setWaiting_outstations (s : State) (x : List Nat) : (s.setWaiting x).outstations = s.outstations := rfl
@[simp] theorem State.setWaiting_lines (s : State) (x : List Nat) : (s.setWaiting x).lines = s.lines := rfl
@[simp] theorem State.setWaiting_points (s : State) (x : List Nat) : (s.setWaiting x).points = s.points := rfl
@[simp] theorem State.setWaiting_drops (s : State) (x : List Nat) : (s.setWaiting x).drops = s.drops := rfl
@[simp] theorem State.setWaiting_faultProfiles (s : State) (x : List Nat) : (s.setWaiting x).faultProfiles = s.faultProfiles := rfl
@[simp] theorem State.setWaiting_loopProfiles (s : State) (x : List Nat) : (s.setWaiting x).loopProfiles = s.loopProfiles := rfl
@[simp] theorem State.setWaiting_records (s : State) (x : List Nat) : (s.setWaiting x).records = s.records := rfl
@[simp] theorem State.setWaiting_nextId (s : State) (x : List Nat) : (s.setWaiting x).nextId = s.nextId := rfl
@[simp] theorem State.setWaiting_waiting (s : State) (x : List Nat) : (s.setWaiting x).waiting = x := rfl
@[simp] theorem State.setWaiting_walkList (s : State) (x : List Nat) : (s.setWaiting x).walkList = s.walkList := rfl
@[simp] theorem State.setWaiting_walk (s : State) (x : List Nat) : (s.setWaiting x).walk = s.walk := rfl
@[simp] theorem State.setWaiting_rebuild (s : State) (x : List Nat) : (s.setWaiting x).rebuild = s.rebuild := rfl
@[simp] theorem State.setWaiting_storm (s : State) (x : List Nat) : (s.setWaiting x).storm = s.storm := rfl
@[simp] theorem State.setWaiting_beacons (s : State) (x : List Nat) : (s.setWaiting x).beacons = s.beacons := rfl
@[simp] theorem State.setWaiting_trunk (s : State) (x : List Nat) : (s.setWaiting x).trunk = s.trunk := rfl
@[simp] theorem State.setWaiting_freeCount (s : State) (x : List Nat) : (s.setWaiting x).freeCount = s.freeCount := rfl
@[simp] theorem State.setWaiting_pending (s : State) (x : List Nat) : (s.setWaiting x).pending = s.pending := rfl

/-! ## setWalkList -/

@[simp] theorem State.setWalkList_resetHeld (s : State) (x : List WalkEntry) : (s.setWalkList x).resetHeld = s.resetHeld := rfl
@[simp] theorem State.setWalkList_mode (s : State) (x : List WalkEntry) : (s.setWalkList x).mode = s.mode := rfl
@[simp] theorem State.setWalkList_time (s : State) (x : List WalkEntry) : (s.setWalkList x).time = s.time := rfl
@[simp] theorem State.setWalkList_owed (s : State) (x : List WalkEntry) : (s.setWalkList x).owed = s.owed := rfl
@[simp] theorem State.setWalkList_assets (s : State) (x : List WalkEntry) : (s.setWalkList x).assets = s.assets := rfl
@[simp] theorem State.setWalkList_outstations (s : State) (x : List WalkEntry) : (s.setWalkList x).outstations = s.outstations := rfl
@[simp] theorem State.setWalkList_lines (s : State) (x : List WalkEntry) : (s.setWalkList x).lines = s.lines := rfl
@[simp] theorem State.setWalkList_points (s : State) (x : List WalkEntry) : (s.setWalkList x).points = s.points := rfl
@[simp] theorem State.setWalkList_drops (s : State) (x : List WalkEntry) : (s.setWalkList x).drops = s.drops := rfl
@[simp] theorem State.setWalkList_faultProfiles (s : State) (x : List WalkEntry) : (s.setWalkList x).faultProfiles = s.faultProfiles := rfl
@[simp] theorem State.setWalkList_loopProfiles (s : State) (x : List WalkEntry) : (s.setWalkList x).loopProfiles = s.loopProfiles := rfl
@[simp] theorem State.setWalkList_records (s : State) (x : List WalkEntry) : (s.setWalkList x).records = s.records := rfl
@[simp] theorem State.setWalkList_nextId (s : State) (x : List WalkEntry) : (s.setWalkList x).nextId = s.nextId := rfl
@[simp] theorem State.setWalkList_waiting (s : State) (x : List WalkEntry) : (s.setWalkList x).waiting = s.waiting := rfl
@[simp] theorem State.setWalkList_walkList (s : State) (x : List WalkEntry) : (s.setWalkList x).walkList = x := rfl
@[simp] theorem State.setWalkList_walk (s : State) (x : List WalkEntry) : (s.setWalkList x).walk = s.walk := rfl
@[simp] theorem State.setWalkList_rebuild (s : State) (x : List WalkEntry) : (s.setWalkList x).rebuild = s.rebuild := rfl
@[simp] theorem State.setWalkList_storm (s : State) (x : List WalkEntry) : (s.setWalkList x).storm = s.storm := rfl
@[simp] theorem State.setWalkList_beacons (s : State) (x : List WalkEntry) : (s.setWalkList x).beacons = s.beacons := rfl
@[simp] theorem State.setWalkList_trunk (s : State) (x : List WalkEntry) : (s.setWalkList x).trunk = s.trunk := rfl
@[simp] theorem State.setWalkList_freeCount (s : State) (x : List WalkEntry) : (s.setWalkList x).freeCount = s.freeCount := rfl
@[simp] theorem State.setWalkList_pending (s : State) (x : List WalkEntry) : (s.setWalkList x).pending = s.pending := rfl

/-! ## setWalk -/

@[simp] theorem State.setWalk_resetHeld (s : State) (x : Option Walk) : (s.setWalk x).resetHeld = s.resetHeld := rfl
@[simp] theorem State.setWalk_mode (s : State) (x : Option Walk) : (s.setWalk x).mode = s.mode := rfl
@[simp] theorem State.setWalk_time (s : State) (x : Option Walk) : (s.setWalk x).time = s.time := rfl
@[simp] theorem State.setWalk_owed (s : State) (x : Option Walk) : (s.setWalk x).owed = s.owed := rfl
@[simp] theorem State.setWalk_assets (s : State) (x : Option Walk) : (s.setWalk x).assets = s.assets := rfl
@[simp] theorem State.setWalk_outstations (s : State) (x : Option Walk) : (s.setWalk x).outstations = s.outstations := rfl
@[simp] theorem State.setWalk_lines (s : State) (x : Option Walk) : (s.setWalk x).lines = s.lines := rfl
@[simp] theorem State.setWalk_points (s : State) (x : Option Walk) : (s.setWalk x).points = s.points := rfl
@[simp] theorem State.setWalk_drops (s : State) (x : Option Walk) : (s.setWalk x).drops = s.drops := rfl
@[simp] theorem State.setWalk_faultProfiles (s : State) (x : Option Walk) : (s.setWalk x).faultProfiles = s.faultProfiles := rfl
@[simp] theorem State.setWalk_loopProfiles (s : State) (x : Option Walk) : (s.setWalk x).loopProfiles = s.loopProfiles := rfl
@[simp] theorem State.setWalk_records (s : State) (x : Option Walk) : (s.setWalk x).records = s.records := rfl
@[simp] theorem State.setWalk_nextId (s : State) (x : Option Walk) : (s.setWalk x).nextId = s.nextId := rfl
@[simp] theorem State.setWalk_waiting (s : State) (x : Option Walk) : (s.setWalk x).waiting = s.waiting := rfl
@[simp] theorem State.setWalk_walkList (s : State) (x : Option Walk) : (s.setWalk x).walkList = s.walkList := rfl
@[simp] theorem State.setWalk_walk (s : State) (x : Option Walk) : (s.setWalk x).walk = x := rfl
@[simp] theorem State.setWalk_rebuild (s : State) (x : Option Walk) : (s.setWalk x).rebuild = s.rebuild := rfl
@[simp] theorem State.setWalk_storm (s : State) (x : Option Walk) : (s.setWalk x).storm = s.storm := rfl
@[simp] theorem State.setWalk_beacons (s : State) (x : Option Walk) : (s.setWalk x).beacons = s.beacons := rfl
@[simp] theorem State.setWalk_trunk (s : State) (x : Option Walk) : (s.setWalk x).trunk = s.trunk := rfl
@[simp] theorem State.setWalk_freeCount (s : State) (x : Option Walk) : (s.setWalk x).freeCount = s.freeCount := rfl
@[simp] theorem State.setWalk_pending (s : State) (x : Option Walk) : (s.setWalk x).pending = s.pending := rfl

/-! ## setRebuild -/

@[simp] theorem State.setRebuild_resetHeld (s : State) (x : Option Rebuild) : (s.setRebuild x).resetHeld = s.resetHeld := rfl
@[simp] theorem State.setRebuild_mode (s : State) (x : Option Rebuild) : (s.setRebuild x).mode = s.mode := rfl
@[simp] theorem State.setRebuild_time (s : State) (x : Option Rebuild) : (s.setRebuild x).time = s.time := rfl
@[simp] theorem State.setRebuild_owed (s : State) (x : Option Rebuild) : (s.setRebuild x).owed = s.owed := rfl
@[simp] theorem State.setRebuild_assets (s : State) (x : Option Rebuild) : (s.setRebuild x).assets = s.assets := rfl
@[simp] theorem State.setRebuild_outstations (s : State) (x : Option Rebuild) : (s.setRebuild x).outstations = s.outstations := rfl
@[simp] theorem State.setRebuild_lines (s : State) (x : Option Rebuild) : (s.setRebuild x).lines = s.lines := rfl
@[simp] theorem State.setRebuild_points (s : State) (x : Option Rebuild) : (s.setRebuild x).points = s.points := rfl
@[simp] theorem State.setRebuild_drops (s : State) (x : Option Rebuild) : (s.setRebuild x).drops = s.drops := rfl
@[simp] theorem State.setRebuild_faultProfiles (s : State) (x : Option Rebuild) : (s.setRebuild x).faultProfiles = s.faultProfiles := rfl
@[simp] theorem State.setRebuild_loopProfiles (s : State) (x : Option Rebuild) : (s.setRebuild x).loopProfiles = s.loopProfiles := rfl
@[simp] theorem State.setRebuild_records (s : State) (x : Option Rebuild) : (s.setRebuild x).records = s.records := rfl
@[simp] theorem State.setRebuild_nextId (s : State) (x : Option Rebuild) : (s.setRebuild x).nextId = s.nextId := rfl
@[simp] theorem State.setRebuild_waiting (s : State) (x : Option Rebuild) : (s.setRebuild x).waiting = s.waiting := rfl
@[simp] theorem State.setRebuild_walkList (s : State) (x : Option Rebuild) : (s.setRebuild x).walkList = s.walkList := rfl
@[simp] theorem State.setRebuild_walk (s : State) (x : Option Rebuild) : (s.setRebuild x).walk = s.walk := rfl
@[simp] theorem State.setRebuild_rebuild (s : State) (x : Option Rebuild) : (s.setRebuild x).rebuild = x := rfl
@[simp] theorem State.setRebuild_storm (s : State) (x : Option Rebuild) : (s.setRebuild x).storm = s.storm := rfl
@[simp] theorem State.setRebuild_beacons (s : State) (x : Option Rebuild) : (s.setRebuild x).beacons = s.beacons := rfl
@[simp] theorem State.setRebuild_trunk (s : State) (x : Option Rebuild) : (s.setRebuild x).trunk = s.trunk := rfl
@[simp] theorem State.setRebuild_freeCount (s : State) (x : Option Rebuild) : (s.setRebuild x).freeCount = s.freeCount := rfl
@[simp] theorem State.setRebuild_pending (s : State) (x : Option Rebuild) : (s.setRebuild x).pending = s.pending := rfl

/-! ## setStorm -/

@[simp] theorem State.setStorm_resetHeld (s : State) (x : Storm) : (s.setStorm x).resetHeld = s.resetHeld := rfl
@[simp] theorem State.setStorm_mode (s : State) (x : Storm) : (s.setStorm x).mode = s.mode := rfl
@[simp] theorem State.setStorm_time (s : State) (x : Storm) : (s.setStorm x).time = s.time := rfl
@[simp] theorem State.setStorm_owed (s : State) (x : Storm) : (s.setStorm x).owed = s.owed := rfl
@[simp] theorem State.setStorm_assets (s : State) (x : Storm) : (s.setStorm x).assets = s.assets := rfl
@[simp] theorem State.setStorm_outstations (s : State) (x : Storm) : (s.setStorm x).outstations = s.outstations := rfl
@[simp] theorem State.setStorm_lines (s : State) (x : Storm) : (s.setStorm x).lines = s.lines := rfl
@[simp] theorem State.setStorm_points (s : State) (x : Storm) : (s.setStorm x).points = s.points := rfl
@[simp] theorem State.setStorm_drops (s : State) (x : Storm) : (s.setStorm x).drops = s.drops := rfl
@[simp] theorem State.setStorm_faultProfiles (s : State) (x : Storm) : (s.setStorm x).faultProfiles = s.faultProfiles := rfl
@[simp] theorem State.setStorm_loopProfiles (s : State) (x : Storm) : (s.setStorm x).loopProfiles = s.loopProfiles := rfl
@[simp] theorem State.setStorm_records (s : State) (x : Storm) : (s.setStorm x).records = s.records := rfl
@[simp] theorem State.setStorm_nextId (s : State) (x : Storm) : (s.setStorm x).nextId = s.nextId := rfl
@[simp] theorem State.setStorm_waiting (s : State) (x : Storm) : (s.setStorm x).waiting = s.waiting := rfl
@[simp] theorem State.setStorm_walkList (s : State) (x : Storm) : (s.setStorm x).walkList = s.walkList := rfl
@[simp] theorem State.setStorm_walk (s : State) (x : Storm) : (s.setStorm x).walk = s.walk := rfl
@[simp] theorem State.setStorm_rebuild (s : State) (x : Storm) : (s.setStorm x).rebuild = s.rebuild := rfl
@[simp] theorem State.setStorm_storm (s : State) (x : Storm) : (s.setStorm x).storm = x := rfl
@[simp] theorem State.setStorm_beacons (s : State) (x : Storm) : (s.setStorm x).beacons = s.beacons := rfl
@[simp] theorem State.setStorm_trunk (s : State) (x : Storm) : (s.setStorm x).trunk = s.trunk := rfl
@[simp] theorem State.setStorm_freeCount (s : State) (x : Storm) : (s.setStorm x).freeCount = s.freeCount := rfl
@[simp] theorem State.setStorm_pending (s : State) (x : Storm) : (s.setStorm x).pending = s.pending := rfl

/-! ## setBeacons -/

@[simp] theorem State.setBeacons_resetHeld (s : State) (x : Vector Beacon 4) : (s.setBeacons x).resetHeld = s.resetHeld := rfl
@[simp] theorem State.setBeacons_mode (s : State) (x : Vector Beacon 4) : (s.setBeacons x).mode = s.mode := rfl
@[simp] theorem State.setBeacons_time (s : State) (x : Vector Beacon 4) : (s.setBeacons x).time = s.time := rfl
@[simp] theorem State.setBeacons_owed (s : State) (x : Vector Beacon 4) : (s.setBeacons x).owed = s.owed := rfl
@[simp] theorem State.setBeacons_assets (s : State) (x : Vector Beacon 4) : (s.setBeacons x).assets = s.assets := rfl
@[simp] theorem State.setBeacons_outstations (s : State) (x : Vector Beacon 4) : (s.setBeacons x).outstations = s.outstations := rfl
@[simp] theorem State.setBeacons_lines (s : State) (x : Vector Beacon 4) : (s.setBeacons x).lines = s.lines := rfl
@[simp] theorem State.setBeacons_points (s : State) (x : Vector Beacon 4) : (s.setBeacons x).points = s.points := rfl
@[simp] theorem State.setBeacons_drops (s : State) (x : Vector Beacon 4) : (s.setBeacons x).drops = s.drops := rfl
@[simp] theorem State.setBeacons_faultProfiles (s : State) (x : Vector Beacon 4) : (s.setBeacons x).faultProfiles = s.faultProfiles := rfl
@[simp] theorem State.setBeacons_loopProfiles (s : State) (x : Vector Beacon 4) : (s.setBeacons x).loopProfiles = s.loopProfiles := rfl
@[simp] theorem State.setBeacons_records (s : State) (x : Vector Beacon 4) : (s.setBeacons x).records = s.records := rfl
@[simp] theorem State.setBeacons_nextId (s : State) (x : Vector Beacon 4) : (s.setBeacons x).nextId = s.nextId := rfl
@[simp] theorem State.setBeacons_waiting (s : State) (x : Vector Beacon 4) : (s.setBeacons x).waiting = s.waiting := rfl
@[simp] theorem State.setBeacons_walkList (s : State) (x : Vector Beacon 4) : (s.setBeacons x).walkList = s.walkList := rfl
@[simp] theorem State.setBeacons_walk (s : State) (x : Vector Beacon 4) : (s.setBeacons x).walk = s.walk := rfl
@[simp] theorem State.setBeacons_rebuild (s : State) (x : Vector Beacon 4) : (s.setBeacons x).rebuild = s.rebuild := rfl
@[simp] theorem State.setBeacons_storm (s : State) (x : Vector Beacon 4) : (s.setBeacons x).storm = s.storm := rfl
@[simp] theorem State.setBeacons_beacons (s : State) (x : Vector Beacon 4) : (s.setBeacons x).beacons = x := rfl
@[simp] theorem State.setBeacons_trunk (s : State) (x : Vector Beacon 4) : (s.setBeacons x).trunk = s.trunk := rfl
@[simp] theorem State.setBeacons_freeCount (s : State) (x : Vector Beacon 4) : (s.setBeacons x).freeCount = s.freeCount := rfl
@[simp] theorem State.setBeacons_pending (s : State) (x : Vector Beacon 4) : (s.setBeacons x).pending = s.pending := rfl

/-! ## setTrunk -/

@[simp] theorem State.setTrunk_resetHeld (s : State) (x : Trunk) : (s.setTrunk x).resetHeld = s.resetHeld := rfl
@[simp] theorem State.setTrunk_mode (s : State) (x : Trunk) : (s.setTrunk x).mode = s.mode := rfl
@[simp] theorem State.setTrunk_time (s : State) (x : Trunk) : (s.setTrunk x).time = s.time := rfl
@[simp] theorem State.setTrunk_owed (s : State) (x : Trunk) : (s.setTrunk x).owed = s.owed := rfl
@[simp] theorem State.setTrunk_assets (s : State) (x : Trunk) : (s.setTrunk x).assets = s.assets := rfl
@[simp] theorem State.setTrunk_outstations (s : State) (x : Trunk) : (s.setTrunk x).outstations = s.outstations := rfl
@[simp] theorem State.setTrunk_lines (s : State) (x : Trunk) : (s.setTrunk x).lines = s.lines := rfl
@[simp] theorem State.setTrunk_points (s : State) (x : Trunk) : (s.setTrunk x).points = s.points := rfl
@[simp] theorem State.setTrunk_drops (s : State) (x : Trunk) : (s.setTrunk x).drops = s.drops := rfl
@[simp] theorem State.setTrunk_faultProfiles (s : State) (x : Trunk) : (s.setTrunk x).faultProfiles = s.faultProfiles := rfl
@[simp] theorem State.setTrunk_loopProfiles (s : State) (x : Trunk) : (s.setTrunk x).loopProfiles = s.loopProfiles := rfl
@[simp] theorem State.setTrunk_records (s : State) (x : Trunk) : (s.setTrunk x).records = s.records := rfl
@[simp] theorem State.setTrunk_nextId (s : State) (x : Trunk) : (s.setTrunk x).nextId = s.nextId := rfl
@[simp] theorem State.setTrunk_waiting (s : State) (x : Trunk) : (s.setTrunk x).waiting = s.waiting := rfl
@[simp] theorem State.setTrunk_walkList (s : State) (x : Trunk) : (s.setTrunk x).walkList = s.walkList := rfl
@[simp] theorem State.setTrunk_walk (s : State) (x : Trunk) : (s.setTrunk x).walk = s.walk := rfl
@[simp] theorem State.setTrunk_rebuild (s : State) (x : Trunk) : (s.setTrunk x).rebuild = s.rebuild := rfl
@[simp] theorem State.setTrunk_storm (s : State) (x : Trunk) : (s.setTrunk x).storm = s.storm := rfl
@[simp] theorem State.setTrunk_beacons (s : State) (x : Trunk) : (s.setTrunk x).beacons = s.beacons := rfl
@[simp] theorem State.setTrunk_trunk (s : State) (x : Trunk) : (s.setTrunk x).trunk = x := rfl
@[simp] theorem State.setTrunk_freeCount (s : State) (x : Trunk) : (s.setTrunk x).freeCount = s.freeCount := rfl
@[simp] theorem State.setTrunk_pending (s : State) (x : Trunk) : (s.setTrunk x).pending = s.pending := rfl

/-! ## setFreeCount -/

@[simp] theorem State.setFreeCount_resetHeld (s : State) (x : Nat) : (s.setFreeCount x).resetHeld = s.resetHeld := rfl
@[simp] theorem State.setFreeCount_mode (s : State) (x : Nat) : (s.setFreeCount x).mode = s.mode := rfl
@[simp] theorem State.setFreeCount_time (s : State) (x : Nat) : (s.setFreeCount x).time = s.time := rfl
@[simp] theorem State.setFreeCount_owed (s : State) (x : Nat) : (s.setFreeCount x).owed = s.owed := rfl
@[simp] theorem State.setFreeCount_assets (s : State) (x : Nat) : (s.setFreeCount x).assets = s.assets := rfl
@[simp] theorem State.setFreeCount_outstations (s : State) (x : Nat) : (s.setFreeCount x).outstations = s.outstations := rfl
@[simp] theorem State.setFreeCount_lines (s : State) (x : Nat) : (s.setFreeCount x).lines = s.lines := rfl
@[simp] theorem State.setFreeCount_points (s : State) (x : Nat) : (s.setFreeCount x).points = s.points := rfl
@[simp] theorem State.setFreeCount_drops (s : State) (x : Nat) : (s.setFreeCount x).drops = s.drops := rfl
@[simp] theorem State.setFreeCount_faultProfiles (s : State) (x : Nat) : (s.setFreeCount x).faultProfiles = s.faultProfiles := rfl
@[simp] theorem State.setFreeCount_loopProfiles (s : State) (x : Nat) : (s.setFreeCount x).loopProfiles = s.loopProfiles := rfl
@[simp] theorem State.setFreeCount_records (s : State) (x : Nat) : (s.setFreeCount x).records = s.records := rfl
@[simp] theorem State.setFreeCount_nextId (s : State) (x : Nat) : (s.setFreeCount x).nextId = s.nextId := rfl
@[simp] theorem State.setFreeCount_waiting (s : State) (x : Nat) : (s.setFreeCount x).waiting = s.waiting := rfl
@[simp] theorem State.setFreeCount_walkList (s : State) (x : Nat) : (s.setFreeCount x).walkList = s.walkList := rfl
@[simp] theorem State.setFreeCount_walk (s : State) (x : Nat) : (s.setFreeCount x).walk = s.walk := rfl
@[simp] theorem State.setFreeCount_rebuild (s : State) (x : Nat) : (s.setFreeCount x).rebuild = s.rebuild := rfl
@[simp] theorem State.setFreeCount_storm (s : State) (x : Nat) : (s.setFreeCount x).storm = s.storm := rfl
@[simp] theorem State.setFreeCount_beacons (s : State) (x : Nat) : (s.setFreeCount x).beacons = s.beacons := rfl
@[simp] theorem State.setFreeCount_trunk (s : State) (x : Nat) : (s.setFreeCount x).trunk = s.trunk := rfl
@[simp] theorem State.setFreeCount_freeCount (s : State) (x : Nat) : (s.setFreeCount x).freeCount = x := rfl
@[simp] theorem State.setFreeCount_pending (s : State) (x : Nat) : (s.setFreeCount x).pending = s.pending := rfl

/-! ## setPending -/

@[simp] theorem State.setPending_resetHeld (s : State) (x : List Instr) : (s.setPending x).resetHeld = s.resetHeld := rfl
@[simp] theorem State.setPending_mode (s : State) (x : List Instr) : (s.setPending x).mode = s.mode := rfl
@[simp] theorem State.setPending_time (s : State) (x : List Instr) : (s.setPending x).time = s.time := rfl
@[simp] theorem State.setPending_owed (s : State) (x : List Instr) : (s.setPending x).owed = s.owed := rfl
@[simp] theorem State.setPending_assets (s : State) (x : List Instr) : (s.setPending x).assets = s.assets := rfl
@[simp] theorem State.setPending_outstations (s : State) (x : List Instr) : (s.setPending x).outstations = s.outstations := rfl
@[simp] theorem State.setPending_lines (s : State) (x : List Instr) : (s.setPending x).lines = s.lines := rfl
@[simp] theorem State.setPending_points (s : State) (x : List Instr) : (s.setPending x).points = s.points := rfl
@[simp] theorem State.setPending_drops (s : State) (x : List Instr) : (s.setPending x).drops = s.drops := rfl
@[simp] theorem State.setPending_faultProfiles (s : State) (x : List Instr) : (s.setPending x).faultProfiles = s.faultProfiles := rfl
@[simp] theorem State.setPending_loopProfiles (s : State) (x : List Instr) : (s.setPending x).loopProfiles = s.loopProfiles := rfl
@[simp] theorem State.setPending_records (s : State) (x : List Instr) : (s.setPending x).records = s.records := rfl
@[simp] theorem State.setPending_nextId (s : State) (x : List Instr) : (s.setPending x).nextId = s.nextId := rfl
@[simp] theorem State.setPending_waiting (s : State) (x : List Instr) : (s.setPending x).waiting = s.waiting := rfl
@[simp] theorem State.setPending_walkList (s : State) (x : List Instr) : (s.setPending x).walkList = s.walkList := rfl
@[simp] theorem State.setPending_walk (s : State) (x : List Instr) : (s.setPending x).walk = s.walk := rfl
@[simp] theorem State.setPending_rebuild (s : State) (x : List Instr) : (s.setPending x).rebuild = s.rebuild := rfl
@[simp] theorem State.setPending_storm (s : State) (x : List Instr) : (s.setPending x).storm = s.storm := rfl
@[simp] theorem State.setPending_beacons (s : State) (x : List Instr) : (s.setPending x).beacons = s.beacons := rfl
@[simp] theorem State.setPending_trunk (s : State) (x : List Instr) : (s.setPending x).trunk = s.trunk := rfl
@[simp] theorem State.setPending_freeCount (s : State) (x : List Instr) : (s.setPending x).freeCount = s.freeCount := rfl
@[simp] theorem State.setPending_pending (s : State) (x : List Instr) : (s.setPending x).pending = x := rfl

/-! ## Accessors -/

@[simp] theorem State.setResetHeld_asset_eq (s : State) (x : Bool) (a : Nat) :
    (s.setResetHeld x).asset? a = s.asset? a := rfl
@[simp] theorem State.setMode_asset_eq (s : State) (x : Mode) (a : Nat) : (s.setMode x).asset? a = s.asset? a := rfl
@[simp] theorem State.setTime_asset_eq (s : State) (x : TimeBase) (a : Nat) :
    (s.setTime x).asset? a = s.asset? a := rfl
@[simp] theorem State.setOutstations_asset_eq (s : State) (x : Table Outstation) (a : Nat) :
    (s.setOutstations x).asset? a = s.asset? a := rfl
@[simp] theorem State.setLines_asset_eq (s : State) (x : Vector Line 4) (a : Nat) :
    (s.setLines x).asset? a = s.asset? a := rfl
@[simp] theorem State.setPoints_asset_eq (s : State) (x : Table Point) (a : Nat) :
    (s.setPoints x).asset? a = s.asset? a := rfl
@[simp] theorem State.setDrops_asset_eq (s : State) (x : Nat) (a : Nat) : (s.setDrops x).asset? a = s.asset? a := rfl
@[simp] theorem State.setFaultProfiles_asset_eq (s : State) (x : Vector FaultProfile 16) (a : Nat) :
    (s.setFaultProfiles x).asset? a = s.asset? a := rfl
@[simp] theorem State.setLoopProfiles_asset_eq (s : State) (x : Vector LoopProfile 8) (a : Nat) :
    (s.setLoopProfiles x).asset? a = s.asset? a := rfl
@[simp] theorem State.setRecords_asset_eq (s : State) (x : Table FaultRecord) (a : Nat) :
    (s.setRecords x).asset? a = s.asset? a := rfl
@[simp] theorem State.setNextId_asset_eq (s : State) (x : Nat) (a : Nat) :
    (s.setNextId x).asset? a = s.asset? a := rfl
@[simp] theorem State.setWaiting_asset_eq (s : State) (x : List Nat) (a : Nat) :
    (s.setWaiting x).asset? a = s.asset? a := rfl
@[simp] theorem State.setWalkList_asset_eq (s : State) (x : List WalkEntry) (a : Nat) :
    (s.setWalkList x).asset? a = s.asset? a := rfl
@[simp] theorem State.setWalk_asset_eq (s : State) (x : Option Walk) (a : Nat) :
    (s.setWalk x).asset? a = s.asset? a := rfl
@[simp] theorem State.setRebuild_asset_eq (s : State) (x : Option Rebuild) (a : Nat) :
    (s.setRebuild x).asset? a = s.asset? a := rfl
@[simp] theorem State.setStorm_asset_eq (s : State) (x : Storm) (a : Nat) :
    (s.setStorm x).asset? a = s.asset? a := rfl
@[simp] theorem State.setBeacons_asset_eq (s : State) (x : Vector Beacon 4) (a : Nat) :
    (s.setBeacons x).asset? a = s.asset? a := rfl
@[simp] theorem State.setTrunk_asset_eq (s : State) (x : Trunk) (a : Nat) :
    (s.setTrunk x).asset? a = s.asset? a := rfl
@[simp] theorem State.setFreeCount_asset_eq (s : State) (x : Nat) (a : Nat) :
    (s.setFreeCount x).asset? a = s.asset? a := rfl
@[simp] theorem State.setOwed_asset_eq (s : State) (x : List TickWork) (a : Nat) :
    (s.setOwed x).asset? a = s.asset? a := rfl
@[simp] theorem State.setPending_asset_eq (s : State) (x : List Instr) (a : Nat) :
    (s.setPending x).asset? a = s.asset? a := rfl

@[simp] theorem State.setResetHeld_faultIdOf_eq (s : State) (x : Bool) (a : Nat) :
    (s.setResetHeld x).faultIdOf a = s.faultIdOf a := rfl
@[simp] theorem State.setMode_faultIdOf_eq (s : State) (x : Mode) (a : Nat) :
    (s.setMode x).faultIdOf a = s.faultIdOf a := rfl
@[simp] theorem State.setTime_faultIdOf_eq (s : State) (x : TimeBase) (a : Nat) :
    (s.setTime x).faultIdOf a = s.faultIdOf a := rfl
@[simp] theorem State.setOutstations_faultIdOf_eq (s : State) (x : Table Outstation) (a : Nat) :
    (s.setOutstations x).faultIdOf a = s.faultIdOf a := rfl
@[simp] theorem State.setLines_faultIdOf_eq (s : State) (x : Vector Line 4) (a : Nat) :
    (s.setLines x).faultIdOf a = s.faultIdOf a := rfl
@[simp] theorem State.setPoints_faultIdOf_eq (s : State) (x : Table Point) (a : Nat) :
    (s.setPoints x).faultIdOf a = s.faultIdOf a := rfl
@[simp] theorem State.setDrops_faultIdOf_eq (s : State) (x : Nat) (a : Nat) :
    (s.setDrops x).faultIdOf a = s.faultIdOf a := rfl
@[simp] theorem State.setFaultProfiles_faultIdOf_eq (s : State) (x : Vector FaultProfile 16) (a : Nat) :
    (s.setFaultProfiles x).faultIdOf a = s.faultIdOf a := rfl
@[simp] theorem State.setLoopProfiles_faultIdOf_eq (s : State) (x : Vector LoopProfile 8) (a : Nat) :
    (s.setLoopProfiles x).faultIdOf a = s.faultIdOf a := rfl
@[simp] theorem State.setRecords_faultIdOf_eq (s : State) (x : Table FaultRecord) (a : Nat) :
    (s.setRecords x).faultIdOf a = s.faultIdOf a := rfl
@[simp] theorem State.setNextId_faultIdOf_eq (s : State) (x : Nat) (a : Nat) :
    (s.setNextId x).faultIdOf a = s.faultIdOf a := rfl
@[simp] theorem State.setWaiting_faultIdOf_eq (s : State) (x : List Nat) (a : Nat) :
    (s.setWaiting x).faultIdOf a = s.faultIdOf a := rfl
@[simp] theorem State.setWalkList_faultIdOf_eq (s : State) (x : List WalkEntry) (a : Nat) :
    (s.setWalkList x).faultIdOf a = s.faultIdOf a := rfl
@[simp] theorem State.setWalk_faultIdOf_eq (s : State) (x : Option Walk) (a : Nat) :
    (s.setWalk x).faultIdOf a = s.faultIdOf a := rfl
@[simp] theorem State.setRebuild_faultIdOf_eq (s : State) (x : Option Rebuild) (a : Nat) :
    (s.setRebuild x).faultIdOf a = s.faultIdOf a := rfl
@[simp] theorem State.setStorm_faultIdOf_eq (s : State) (x : Storm) (a : Nat) :
    (s.setStorm x).faultIdOf a = s.faultIdOf a := rfl
@[simp] theorem State.setBeacons_faultIdOf_eq (s : State) (x : Vector Beacon 4) (a : Nat) :
    (s.setBeacons x).faultIdOf a = s.faultIdOf a := rfl
@[simp] theorem State.setTrunk_faultIdOf_eq (s : State) (x : Trunk) (a : Nat) :
    (s.setTrunk x).faultIdOf a = s.faultIdOf a := rfl
@[simp] theorem State.setFreeCount_faultIdOf_eq (s : State) (x : Nat) (a : Nat) :
    (s.setFreeCount x).faultIdOf a = s.faultIdOf a := rfl
@[simp] theorem State.setOwed_faultIdOf_eq (s : State) (x : List TickWork) (a : Nat) :
    (s.setOwed x).faultIdOf a = s.faultIdOf a := rfl
@[simp] theorem State.setPending_faultIdOf_eq (s : State) (x : List Instr) (a : Nat) :
    (s.setPending x).faultIdOf a = s.faultIdOf a := rfl

@[simp] theorem State.setResetHeld_absorbedByOf_eq (s : State) (x : Bool) (a : Nat) :
    (s.setResetHeld x).absorbedByOf a = s.absorbedByOf a := rfl
@[simp] theorem State.setMode_absorbedByOf_eq (s : State) (x : Mode) (a : Nat) :
    (s.setMode x).absorbedByOf a = s.absorbedByOf a := rfl
@[simp] theorem State.setTime_absorbedByOf_eq (s : State) (x : TimeBase) (a : Nat) :
    (s.setTime x).absorbedByOf a = s.absorbedByOf a := rfl
@[simp] theorem State.setOutstations_absorbedByOf_eq (s : State) (x : Table Outstation) (a : Nat) :
    (s.setOutstations x).absorbedByOf a = s.absorbedByOf a := rfl
@[simp] theorem State.setLines_absorbedByOf_eq (s : State) (x : Vector Line 4) (a : Nat) :
    (s.setLines x).absorbedByOf a = s.absorbedByOf a := rfl
@[simp] theorem State.setPoints_absorbedByOf_eq (s : State) (x : Table Point) (a : Nat) :
    (s.setPoints x).absorbedByOf a = s.absorbedByOf a := rfl
@[simp] theorem State.setDrops_absorbedByOf_eq (s : State) (x : Nat) (a : Nat) :
    (s.setDrops x).absorbedByOf a = s.absorbedByOf a := rfl
@[simp] theorem State.setFaultProfiles_absorbedByOf_eq (s : State) (x : Vector FaultProfile 16) (a : Nat) :
    (s.setFaultProfiles x).absorbedByOf a = s.absorbedByOf a := rfl
@[simp] theorem State.setLoopProfiles_absorbedByOf_eq (s : State) (x : Vector LoopProfile 8) (a : Nat) :
    (s.setLoopProfiles x).absorbedByOf a = s.absorbedByOf a := rfl
@[simp] theorem State.setRecords_absorbedByOf_eq (s : State) (x : Table FaultRecord) (a : Nat) :
    (s.setRecords x).absorbedByOf a = s.absorbedByOf a := rfl
@[simp] theorem State.setNextId_absorbedByOf_eq (s : State) (x : Nat) (a : Nat) :
    (s.setNextId x).absorbedByOf a = s.absorbedByOf a := rfl
@[simp] theorem State.setWaiting_absorbedByOf_eq (s : State) (x : List Nat) (a : Nat) :
    (s.setWaiting x).absorbedByOf a = s.absorbedByOf a := rfl
@[simp] theorem State.setWalkList_absorbedByOf_eq (s : State) (x : List WalkEntry) (a : Nat) :
    (s.setWalkList x).absorbedByOf a = s.absorbedByOf a := rfl
@[simp] theorem State.setWalk_absorbedByOf_eq (s : State) (x : Option Walk) (a : Nat) :
    (s.setWalk x).absorbedByOf a = s.absorbedByOf a := rfl
@[simp] theorem State.setRebuild_absorbedByOf_eq (s : State) (x : Option Rebuild) (a : Nat) :
    (s.setRebuild x).absorbedByOf a = s.absorbedByOf a := rfl
@[simp] theorem State.setStorm_absorbedByOf_eq (s : State) (x : Storm) (a : Nat) :
    (s.setStorm x).absorbedByOf a = s.absorbedByOf a := rfl
@[simp] theorem State.setBeacons_absorbedByOf_eq (s : State) (x : Vector Beacon 4) (a : Nat) :
    (s.setBeacons x).absorbedByOf a = s.absorbedByOf a := rfl
@[simp] theorem State.setTrunk_absorbedByOf_eq (s : State) (x : Trunk) (a : Nat) :
    (s.setTrunk x).absorbedByOf a = s.absorbedByOf a := rfl
@[simp] theorem State.setFreeCount_absorbedByOf_eq (s : State) (x : Nat) (a : Nat) :
    (s.setFreeCount x).absorbedByOf a = s.absorbedByOf a := rfl
@[simp] theorem State.setOwed_absorbedByOf_eq (s : State) (x : List TickWork) (a : Nat) :
    (s.setOwed x).absorbedByOf a = s.absorbedByOf a := rfl
@[simp] theorem State.setPending_absorbedByOf_eq (s : State) (x : List Instr) (a : Nat) :
    (s.setPending x).absorbedByOf a = s.absorbedByOf a := rfl

@[simp] theorem State.setResetHeld_parentOf_eq (s : State) (x : Bool) (a : Nat) :
    (s.setResetHeld x).parentOf a = s.parentOf a := rfl
@[simp] theorem State.setMode_parentOf_eq (s : State) (x : Mode) (a : Nat) :
    (s.setMode x).parentOf a = s.parentOf a := rfl
@[simp] theorem State.setTime_parentOf_eq (s : State) (x : TimeBase) (a : Nat) :
    (s.setTime x).parentOf a = s.parentOf a := rfl
@[simp] theorem State.setOutstations_parentOf_eq (s : State) (x : Table Outstation) (a : Nat) :
    (s.setOutstations x).parentOf a = s.parentOf a := rfl
@[simp] theorem State.setLines_parentOf_eq (s : State) (x : Vector Line 4) (a : Nat) :
    (s.setLines x).parentOf a = s.parentOf a := rfl
@[simp] theorem State.setPoints_parentOf_eq (s : State) (x : Table Point) (a : Nat) :
    (s.setPoints x).parentOf a = s.parentOf a := rfl
@[simp] theorem State.setDrops_parentOf_eq (s : State) (x : Nat) (a : Nat) :
    (s.setDrops x).parentOf a = s.parentOf a := rfl
@[simp] theorem State.setFaultProfiles_parentOf_eq (s : State) (x : Vector FaultProfile 16) (a : Nat) :
    (s.setFaultProfiles x).parentOf a = s.parentOf a := rfl
@[simp] theorem State.setLoopProfiles_parentOf_eq (s : State) (x : Vector LoopProfile 8) (a : Nat) :
    (s.setLoopProfiles x).parentOf a = s.parentOf a := rfl
@[simp] theorem State.setRecords_parentOf_eq (s : State) (x : Table FaultRecord) (a : Nat) :
    (s.setRecords x).parentOf a = s.parentOf a := rfl
@[simp] theorem State.setNextId_parentOf_eq (s : State) (x : Nat) (a : Nat) :
    (s.setNextId x).parentOf a = s.parentOf a := rfl
@[simp] theorem State.setWaiting_parentOf_eq (s : State) (x : List Nat) (a : Nat) :
    (s.setWaiting x).parentOf a = s.parentOf a := rfl
@[simp] theorem State.setWalkList_parentOf_eq (s : State) (x : List WalkEntry) (a : Nat) :
    (s.setWalkList x).parentOf a = s.parentOf a := rfl
@[simp] theorem State.setWalk_parentOf_eq (s : State) (x : Option Walk) (a : Nat) :
    (s.setWalk x).parentOf a = s.parentOf a := rfl
@[simp] theorem State.setRebuild_parentOf_eq (s : State) (x : Option Rebuild) (a : Nat) :
    (s.setRebuild x).parentOf a = s.parentOf a := rfl
@[simp] theorem State.setStorm_parentOf_eq (s : State) (x : Storm) (a : Nat) :
    (s.setStorm x).parentOf a = s.parentOf a := rfl
@[simp] theorem State.setBeacons_parentOf_eq (s : State) (x : Vector Beacon 4) (a : Nat) :
    (s.setBeacons x).parentOf a = s.parentOf a := rfl
@[simp] theorem State.setTrunk_parentOf_eq (s : State) (x : Trunk) (a : Nat) :
    (s.setTrunk x).parentOf a = s.parentOf a := rfl
@[simp] theorem State.setFreeCount_parentOf_eq (s : State) (x : Nat) (a : Nat) :
    (s.setFreeCount x).parentOf a = s.parentOf a := rfl
@[simp] theorem State.setOwed_parentOf_eq (s : State) (x : List TickWork) (a : Nat) :
    (s.setOwed x).parentOf a = s.parentOf a := rfl
@[simp] theorem State.setPending_parentOf_eq (s : State) (x : List Instr) (a : Nat) :
    (s.setPending x).parentOf a = s.parentOf a := rfl

@[simp] theorem State.setResetHeld_childrenOf_eq (s : State) (x : Bool) (a : Nat) :
    (s.setResetHeld x).childrenOf a = s.childrenOf a := rfl
@[simp] theorem State.setMode_childrenOf_eq (s : State) (x : Mode) (a : Nat) :
    (s.setMode x).childrenOf a = s.childrenOf a := rfl
@[simp] theorem State.setTime_childrenOf_eq (s : State) (x : TimeBase) (a : Nat) :
    (s.setTime x).childrenOf a = s.childrenOf a := rfl
@[simp] theorem State.setOutstations_childrenOf_eq (s : State) (x : Table Outstation) (a : Nat) :
    (s.setOutstations x).childrenOf a = s.childrenOf a := rfl
@[simp] theorem State.setLines_childrenOf_eq (s : State) (x : Vector Line 4) (a : Nat) :
    (s.setLines x).childrenOf a = s.childrenOf a := rfl
@[simp] theorem State.setPoints_childrenOf_eq (s : State) (x : Table Point) (a : Nat) :
    (s.setPoints x).childrenOf a = s.childrenOf a := rfl
@[simp] theorem State.setDrops_childrenOf_eq (s : State) (x : Nat) (a : Nat) :
    (s.setDrops x).childrenOf a = s.childrenOf a := rfl
@[simp] theorem State.setFaultProfiles_childrenOf_eq (s : State) (x : Vector FaultProfile 16) (a : Nat) :
    (s.setFaultProfiles x).childrenOf a = s.childrenOf a := rfl
@[simp] theorem State.setLoopProfiles_childrenOf_eq (s : State) (x : Vector LoopProfile 8) (a : Nat) :
    (s.setLoopProfiles x).childrenOf a = s.childrenOf a := rfl
@[simp] theorem State.setRecords_childrenOf_eq (s : State) (x : Table FaultRecord) (a : Nat) :
    (s.setRecords x).childrenOf a = s.childrenOf a := rfl
@[simp] theorem State.setNextId_childrenOf_eq (s : State) (x : Nat) (a : Nat) :
    (s.setNextId x).childrenOf a = s.childrenOf a := rfl
@[simp] theorem State.setWaiting_childrenOf_eq (s : State) (x : List Nat) (a : Nat) :
    (s.setWaiting x).childrenOf a = s.childrenOf a := rfl
@[simp] theorem State.setWalkList_childrenOf_eq (s : State) (x : List WalkEntry) (a : Nat) :
    (s.setWalkList x).childrenOf a = s.childrenOf a := rfl
@[simp] theorem State.setWalk_childrenOf_eq (s : State) (x : Option Walk) (a : Nat) :
    (s.setWalk x).childrenOf a = s.childrenOf a := rfl
@[simp] theorem State.setRebuild_childrenOf_eq (s : State) (x : Option Rebuild) (a : Nat) :
    (s.setRebuild x).childrenOf a = s.childrenOf a := rfl
@[simp] theorem State.setStorm_childrenOf_eq (s : State) (x : Storm) (a : Nat) :
    (s.setStorm x).childrenOf a = s.childrenOf a := rfl
@[simp] theorem State.setBeacons_childrenOf_eq (s : State) (x : Vector Beacon 4) (a : Nat) :
    (s.setBeacons x).childrenOf a = s.childrenOf a := rfl
@[simp] theorem State.setTrunk_childrenOf_eq (s : State) (x : Trunk) (a : Nat) :
    (s.setTrunk x).childrenOf a = s.childrenOf a := rfl
@[simp] theorem State.setFreeCount_childrenOf_eq (s : State) (x : Nat) (a : Nat) :
    (s.setFreeCount x).childrenOf a = s.childrenOf a := rfl
@[simp] theorem State.setOwed_childrenOf_eq (s : State) (x : List TickWork) (a : Nat) :
    (s.setOwed x).childrenOf a = s.childrenOf a := rfl
@[simp] theorem State.setPending_childrenOf_eq (s : State) (x : List Instr) (a : Nat) :
    (s.setPending x).childrenOf a = s.childrenOf a := rfl

@[simp] theorem State.setResetHeld_hasChild_eq (s : State) (x : Bool) (a : Nat) :
    (s.setResetHeld x).hasChild a = s.hasChild a := rfl
@[simp] theorem State.setMode_hasChild_eq (s : State) (x : Mode) (a : Nat) :
    (s.setMode x).hasChild a = s.hasChild a := rfl
@[simp] theorem State.setTime_hasChild_eq (s : State) (x : TimeBase) (a : Nat) :
    (s.setTime x).hasChild a = s.hasChild a := rfl
@[simp] theorem State.setOutstations_hasChild_eq (s : State) (x : Table Outstation) (a : Nat) :
    (s.setOutstations x).hasChild a = s.hasChild a := rfl
@[simp] theorem State.setLines_hasChild_eq (s : State) (x : Vector Line 4) (a : Nat) :
    (s.setLines x).hasChild a = s.hasChild a := rfl
@[simp] theorem State.setPoints_hasChild_eq (s : State) (x : Table Point) (a : Nat) :
    (s.setPoints x).hasChild a = s.hasChild a := rfl
@[simp] theorem State.setDrops_hasChild_eq (s : State) (x : Nat) (a : Nat) :
    (s.setDrops x).hasChild a = s.hasChild a := rfl
@[simp] theorem State.setFaultProfiles_hasChild_eq (s : State) (x : Vector FaultProfile 16) (a : Nat) :
    (s.setFaultProfiles x).hasChild a = s.hasChild a := rfl
@[simp] theorem State.setLoopProfiles_hasChild_eq (s : State) (x : Vector LoopProfile 8) (a : Nat) :
    (s.setLoopProfiles x).hasChild a = s.hasChild a := rfl
@[simp] theorem State.setRecords_hasChild_eq (s : State) (x : Table FaultRecord) (a : Nat) :
    (s.setRecords x).hasChild a = s.hasChild a := rfl
@[simp] theorem State.setNextId_hasChild_eq (s : State) (x : Nat) (a : Nat) :
    (s.setNextId x).hasChild a = s.hasChild a := rfl
@[simp] theorem State.setWaiting_hasChild_eq (s : State) (x : List Nat) (a : Nat) :
    (s.setWaiting x).hasChild a = s.hasChild a := rfl
@[simp] theorem State.setWalkList_hasChild_eq (s : State) (x : List WalkEntry) (a : Nat) :
    (s.setWalkList x).hasChild a = s.hasChild a := rfl
@[simp] theorem State.setWalk_hasChild_eq (s : State) (x : Option Walk) (a : Nat) :
    (s.setWalk x).hasChild a = s.hasChild a := rfl
@[simp] theorem State.setRebuild_hasChild_eq (s : State) (x : Option Rebuild) (a : Nat) :
    (s.setRebuild x).hasChild a = s.hasChild a := rfl
@[simp] theorem State.setStorm_hasChild_eq (s : State) (x : Storm) (a : Nat) :
    (s.setStorm x).hasChild a = s.hasChild a := rfl
@[simp] theorem State.setBeacons_hasChild_eq (s : State) (x : Vector Beacon 4) (a : Nat) :
    (s.setBeacons x).hasChild a = s.hasChild a := rfl
@[simp] theorem State.setTrunk_hasChild_eq (s : State) (x : Trunk) (a : Nat) :
    (s.setTrunk x).hasChild a = s.hasChild a := rfl
@[simp] theorem State.setFreeCount_hasChild_eq (s : State) (x : Nat) (a : Nat) :
    (s.setFreeCount x).hasChild a = s.hasChild a := rfl
@[simp] theorem State.setOwed_hasChild_eq (s : State) (x : List TickWork) (a : Nat) :
    (s.setOwed x).hasChild a = s.hasChild a := rfl
@[simp] theorem State.setPending_hasChild_eq (s : State) (x : List Instr) (a : Nat) :
    (s.setPending x).hasChild a = s.hasChild a := rfl

@[simp] theorem State.setResetHeld_outstation_eq (s : State) (x : Bool) (o : Nat) :
    (s.setResetHeld x).outstation? o = s.outstation? o := rfl
@[simp] theorem State.setMode_outstation_eq (s : State) (x : Mode) (o : Nat) :
    (s.setMode x).outstation? o = s.outstation? o := rfl
@[simp] theorem State.setTime_outstation_eq (s : State) (x : TimeBase) (o : Nat) :
    (s.setTime x).outstation? o = s.outstation? o := rfl
@[simp] theorem State.setAssets_outstation_eq (s : State) (x : Table Asset) (o : Nat) :
    (s.setAssets x).outstation? o = s.outstation? o := rfl
@[simp] theorem State.setLines_outstation_eq (s : State) (x : Vector Line 4) (o : Nat) :
    (s.setLines x).outstation? o = s.outstation? o := rfl
@[simp] theorem State.setPoints_outstation_eq (s : State) (x : Table Point) (o : Nat) :
    (s.setPoints x).outstation? o = s.outstation? o := rfl
@[simp] theorem State.setDrops_outstation_eq (s : State) (x : Nat) (o : Nat) :
    (s.setDrops x).outstation? o = s.outstation? o := rfl
@[simp] theorem State.setFaultProfiles_outstation_eq (s : State) (x : Vector FaultProfile 16) (o : Nat) :
    (s.setFaultProfiles x).outstation? o = s.outstation? o := rfl
@[simp] theorem State.setLoopProfiles_outstation_eq (s : State) (x : Vector LoopProfile 8) (o : Nat) :
    (s.setLoopProfiles x).outstation? o = s.outstation? o := rfl
@[simp] theorem State.setRecords_outstation_eq (s : State) (x : Table FaultRecord) (o : Nat) :
    (s.setRecords x).outstation? o = s.outstation? o := rfl
@[simp] theorem State.setNextId_outstation_eq (s : State) (x : Nat) (o : Nat) :
    (s.setNextId x).outstation? o = s.outstation? o := rfl
@[simp] theorem State.setWaiting_outstation_eq (s : State) (x : List Nat) (o : Nat) :
    (s.setWaiting x).outstation? o = s.outstation? o := rfl
@[simp] theorem State.setWalkList_outstation_eq (s : State) (x : List WalkEntry) (o : Nat) :
    (s.setWalkList x).outstation? o = s.outstation? o := rfl
@[simp] theorem State.setWalk_outstation_eq (s : State) (x : Option Walk) (o : Nat) :
    (s.setWalk x).outstation? o = s.outstation? o := rfl
@[simp] theorem State.setRebuild_outstation_eq (s : State) (x : Option Rebuild) (o : Nat) :
    (s.setRebuild x).outstation? o = s.outstation? o := rfl
@[simp] theorem State.setStorm_outstation_eq (s : State) (x : Storm) (o : Nat) :
    (s.setStorm x).outstation? o = s.outstation? o := rfl
@[simp] theorem State.setBeacons_outstation_eq (s : State) (x : Vector Beacon 4) (o : Nat) :
    (s.setBeacons x).outstation? o = s.outstation? o := rfl
@[simp] theorem State.setTrunk_outstation_eq (s : State) (x : Trunk) (o : Nat) :
    (s.setTrunk x).outstation? o = s.outstation? o := rfl
@[simp] theorem State.setFreeCount_outstation_eq (s : State) (x : Nat) (o : Nat) :
    (s.setFreeCount x).outstation? o = s.outstation? o := rfl
@[simp] theorem State.setOwed_outstation_eq (s : State) (x : List TickWork) (o : Nat) :
    (s.setOwed x).outstation? o = s.outstation? o := rfl
@[simp] theorem State.setPending_outstation_eq (s : State) (x : List Instr) (o : Nat) :
    (s.setPending x).outstation? o = s.outstation? o := rfl

@[simp] theorem State.setResetHeld_line_eq (s : State) (x : Bool) (k : Fin 4) :
    (s.setResetHeld x).line k = s.line k := rfl
@[simp] theorem State.setMode_line_eq (s : State) (x : Mode) (k : Fin 4) : (s.setMode x).line k = s.line k := rfl
@[simp] theorem State.setTime_line_eq (s : State) (x : TimeBase) (k : Fin 4) : (s.setTime x).line k = s.line k := rfl
@[simp] theorem State.setAssets_line_eq (s : State) (x : Table Asset) (k : Fin 4) :
    (s.setAssets x).line k = s.line k := rfl
@[simp] theorem State.setOutstations_line_eq (s : State) (x : Table Outstation) (k : Fin 4) :
    (s.setOutstations x).line k = s.line k := rfl
@[simp] theorem State.setPoints_line_eq (s : State) (x : Table Point) (k : Fin 4) :
    (s.setPoints x).line k = s.line k := rfl
@[simp] theorem State.setDrops_line_eq (s : State) (x : Nat) (k : Fin 4) : (s.setDrops x).line k = s.line k := rfl
@[simp] theorem State.setFaultProfiles_line_eq (s : State) (x : Vector FaultProfile 16) (k : Fin 4) :
    (s.setFaultProfiles x).line k = s.line k := rfl
@[simp] theorem State.setLoopProfiles_line_eq (s : State) (x : Vector LoopProfile 8) (k : Fin 4) :
    (s.setLoopProfiles x).line k = s.line k := rfl
@[simp] theorem State.setRecords_line_eq (s : State) (x : Table FaultRecord) (k : Fin 4) :
    (s.setRecords x).line k = s.line k := rfl
@[simp] theorem State.setNextId_line_eq (s : State) (x : Nat) (k : Fin 4) : (s.setNextId x).line k = s.line k := rfl
@[simp] theorem State.setWaiting_line_eq (s : State) (x : List Nat) (k : Fin 4) :
    (s.setWaiting x).line k = s.line k := rfl
@[simp] theorem State.setWalkList_line_eq (s : State) (x : List WalkEntry) (k : Fin 4) :
    (s.setWalkList x).line k = s.line k := rfl
@[simp] theorem State.setWalk_line_eq (s : State) (x : Option Walk) (k : Fin 4) :
    (s.setWalk x).line k = s.line k := rfl
@[simp] theorem State.setRebuild_line_eq (s : State) (x : Option Rebuild) (k : Fin 4) :
    (s.setRebuild x).line k = s.line k := rfl
@[simp] theorem State.setStorm_line_eq (s : State) (x : Storm) (k : Fin 4) : (s.setStorm x).line k = s.line k := rfl
@[simp] theorem State.setBeacons_line_eq (s : State) (x : Vector Beacon 4) (k : Fin 4) :
    (s.setBeacons x).line k = s.line k := rfl
@[simp] theorem State.setTrunk_line_eq (s : State) (x : Trunk) (k : Fin 4) : (s.setTrunk x).line k = s.line k := rfl
@[simp] theorem State.setFreeCount_line_eq (s : State) (x : Nat) (k : Fin 4) :
    (s.setFreeCount x).line k = s.line k := rfl
@[simp] theorem State.setOwed_line_eq (s : State) (x : List TickWork) (k : Fin 4) :
    (s.setOwed x).line k = s.line k := rfl
@[simp] theorem State.setPending_line_eq (s : State) (x : List Instr) (k : Fin 4) :
    (s.setPending x).line k = s.line k := rfl

@[simp] theorem State.setResetHeld_faultProfile_eq (s : State) (x : Bool) (p : Fin 16) :
    (s.setResetHeld x).faultProfile p = s.faultProfile p := rfl
@[simp] theorem State.setMode_faultProfile_eq (s : State) (x : Mode) (p : Fin 16) :
    (s.setMode x).faultProfile p = s.faultProfile p := rfl
@[simp] theorem State.setTime_faultProfile_eq (s : State) (x : TimeBase) (p : Fin 16) :
    (s.setTime x).faultProfile p = s.faultProfile p := rfl
@[simp] theorem State.setAssets_faultProfile_eq (s : State) (x : Table Asset) (p : Fin 16) :
    (s.setAssets x).faultProfile p = s.faultProfile p := rfl
@[simp] theorem State.setOutstations_faultProfile_eq (s : State) (x : Table Outstation) (p : Fin 16) :
    (s.setOutstations x).faultProfile p = s.faultProfile p := rfl
@[simp] theorem State.setLines_faultProfile_eq (s : State) (x : Vector Line 4) (p : Fin 16) :
    (s.setLines x).faultProfile p = s.faultProfile p := rfl
@[simp] theorem State.setPoints_faultProfile_eq (s : State) (x : Table Point) (p : Fin 16) :
    (s.setPoints x).faultProfile p = s.faultProfile p := rfl
@[simp] theorem State.setDrops_faultProfile_eq (s : State) (x : Nat) (p : Fin 16) :
    (s.setDrops x).faultProfile p = s.faultProfile p := rfl
@[simp] theorem State.setLoopProfiles_faultProfile_eq (s : State) (x : Vector LoopProfile 8) (p : Fin 16) :
    (s.setLoopProfiles x).faultProfile p = s.faultProfile p := rfl
@[simp] theorem State.setRecords_faultProfile_eq (s : State) (x : Table FaultRecord) (p : Fin 16) :
    (s.setRecords x).faultProfile p = s.faultProfile p := rfl
@[simp] theorem State.setNextId_faultProfile_eq (s : State) (x : Nat) (p : Fin 16) :
    (s.setNextId x).faultProfile p = s.faultProfile p := rfl
@[simp] theorem State.setWaiting_faultProfile_eq (s : State) (x : List Nat) (p : Fin 16) :
    (s.setWaiting x).faultProfile p = s.faultProfile p := rfl
@[simp] theorem State.setWalkList_faultProfile_eq (s : State) (x : List WalkEntry) (p : Fin 16) :
    (s.setWalkList x).faultProfile p = s.faultProfile p := rfl
@[simp] theorem State.setWalk_faultProfile_eq (s : State) (x : Option Walk) (p : Fin 16) :
    (s.setWalk x).faultProfile p = s.faultProfile p := rfl
@[simp] theorem State.setRebuild_faultProfile_eq (s : State) (x : Option Rebuild) (p : Fin 16) :
    (s.setRebuild x).faultProfile p = s.faultProfile p := rfl
@[simp] theorem State.setStorm_faultProfile_eq (s : State) (x : Storm) (p : Fin 16) :
    (s.setStorm x).faultProfile p = s.faultProfile p := rfl
@[simp] theorem State.setBeacons_faultProfile_eq (s : State) (x : Vector Beacon 4) (p : Fin 16) :
    (s.setBeacons x).faultProfile p = s.faultProfile p := rfl
@[simp] theorem State.setTrunk_faultProfile_eq (s : State) (x : Trunk) (p : Fin 16) :
    (s.setTrunk x).faultProfile p = s.faultProfile p := rfl
@[simp] theorem State.setFreeCount_faultProfile_eq (s : State) (x : Nat) (p : Fin 16) :
    (s.setFreeCount x).faultProfile p = s.faultProfile p := rfl
@[simp] theorem State.setOwed_faultProfile_eq (s : State) (x : List TickWork) (p : Fin 16) :
    (s.setOwed x).faultProfile p = s.faultProfile p := rfl
@[simp] theorem State.setPending_faultProfile_eq (s : State) (x : List Instr) (p : Fin 16) :
    (s.setPending x).faultProfile p = s.faultProfile p := rfl

@[simp] theorem State.setResetHeld_loopProfile_eq (s : State) (x : Bool) (p : Fin 8) :
    (s.setResetHeld x).loopProfile p = s.loopProfile p := rfl
@[simp] theorem State.setMode_loopProfile_eq (s : State) (x : Mode) (p : Fin 8) :
    (s.setMode x).loopProfile p = s.loopProfile p := rfl
@[simp] theorem State.setTime_loopProfile_eq (s : State) (x : TimeBase) (p : Fin 8) :
    (s.setTime x).loopProfile p = s.loopProfile p := rfl
@[simp] theorem State.setAssets_loopProfile_eq (s : State) (x : Table Asset) (p : Fin 8) :
    (s.setAssets x).loopProfile p = s.loopProfile p := rfl
@[simp] theorem State.setOutstations_loopProfile_eq (s : State) (x : Table Outstation) (p : Fin 8) :
    (s.setOutstations x).loopProfile p = s.loopProfile p := rfl
@[simp] theorem State.setLines_loopProfile_eq (s : State) (x : Vector Line 4) (p : Fin 8) :
    (s.setLines x).loopProfile p = s.loopProfile p := rfl
@[simp] theorem State.setPoints_loopProfile_eq (s : State) (x : Table Point) (p : Fin 8) :
    (s.setPoints x).loopProfile p = s.loopProfile p := rfl
@[simp] theorem State.setDrops_loopProfile_eq (s : State) (x : Nat) (p : Fin 8) :
    (s.setDrops x).loopProfile p = s.loopProfile p := rfl
@[simp] theorem State.setFaultProfiles_loopProfile_eq (s : State) (x : Vector FaultProfile 16) (p : Fin 8) :
    (s.setFaultProfiles x).loopProfile p = s.loopProfile p := rfl
@[simp] theorem State.setRecords_loopProfile_eq (s : State) (x : Table FaultRecord) (p : Fin 8) :
    (s.setRecords x).loopProfile p = s.loopProfile p := rfl
@[simp] theorem State.setNextId_loopProfile_eq (s : State) (x : Nat) (p : Fin 8) :
    (s.setNextId x).loopProfile p = s.loopProfile p := rfl
@[simp] theorem State.setWaiting_loopProfile_eq (s : State) (x : List Nat) (p : Fin 8) :
    (s.setWaiting x).loopProfile p = s.loopProfile p := rfl
@[simp] theorem State.setWalkList_loopProfile_eq (s : State) (x : List WalkEntry) (p : Fin 8) :
    (s.setWalkList x).loopProfile p = s.loopProfile p := rfl
@[simp] theorem State.setWalk_loopProfile_eq (s : State) (x : Option Walk) (p : Fin 8) :
    (s.setWalk x).loopProfile p = s.loopProfile p := rfl
@[simp] theorem State.setRebuild_loopProfile_eq (s : State) (x : Option Rebuild) (p : Fin 8) :
    (s.setRebuild x).loopProfile p = s.loopProfile p := rfl
@[simp] theorem State.setStorm_loopProfile_eq (s : State) (x : Storm) (p : Fin 8) :
    (s.setStorm x).loopProfile p = s.loopProfile p := rfl
@[simp] theorem State.setBeacons_loopProfile_eq (s : State) (x : Vector Beacon 4) (p : Fin 8) :
    (s.setBeacons x).loopProfile p = s.loopProfile p := rfl
@[simp] theorem State.setTrunk_loopProfile_eq (s : State) (x : Trunk) (p : Fin 8) :
    (s.setTrunk x).loopProfile p = s.loopProfile p := rfl
@[simp] theorem State.setFreeCount_loopProfile_eq (s : State) (x : Nat) (p : Fin 8) :
    (s.setFreeCount x).loopProfile p = s.loopProfile p := rfl
@[simp] theorem State.setOwed_loopProfile_eq (s : State) (x : List TickWork) (p : Fin 8) :
    (s.setOwed x).loopProfile p = s.loopProfile p := rfl
@[simp] theorem State.setPending_loopProfile_eq (s : State) (x : List Instr) (p : Fin 8) :
    (s.setPending x).loopProfile p = s.loopProfile p := rfl

@[simp] theorem State.setResetHeld_beacon_eq (s : State) (x : Bool) (b : Fin 4) :
    (s.setResetHeld x).beacon b = s.beacon b := rfl
@[simp] theorem State.setMode_beacon_eq (s : State) (x : Mode) (b : Fin 4) :
    (s.setMode x).beacon b = s.beacon b := rfl
@[simp] theorem State.setTime_beacon_eq (s : State) (x : TimeBase) (b : Fin 4) :
    (s.setTime x).beacon b = s.beacon b := rfl
@[simp] theorem State.setAssets_beacon_eq (s : State) (x : Table Asset) (b : Fin 4) :
    (s.setAssets x).beacon b = s.beacon b := rfl
@[simp] theorem State.setOutstations_beacon_eq (s : State) (x : Table Outstation) (b : Fin 4) :
    (s.setOutstations x).beacon b = s.beacon b := rfl
@[simp] theorem State.setLines_beacon_eq (s : State) (x : Vector Line 4) (b : Fin 4) :
    (s.setLines x).beacon b = s.beacon b := rfl
@[simp] theorem State.setPoints_beacon_eq (s : State) (x : Table Point) (b : Fin 4) :
    (s.setPoints x).beacon b = s.beacon b := rfl
@[simp] theorem State.setDrops_beacon_eq (s : State) (x : Nat) (b : Fin 4) :
    (s.setDrops x).beacon b = s.beacon b := rfl
@[simp] theorem State.setFaultProfiles_beacon_eq (s : State) (x : Vector FaultProfile 16) (b : Fin 4) :
    (s.setFaultProfiles x).beacon b = s.beacon b := rfl
@[simp] theorem State.setLoopProfiles_beacon_eq (s : State) (x : Vector LoopProfile 8) (b : Fin 4) :
    (s.setLoopProfiles x).beacon b = s.beacon b := rfl
@[simp] theorem State.setRecords_beacon_eq (s : State) (x : Table FaultRecord) (b : Fin 4) :
    (s.setRecords x).beacon b = s.beacon b := rfl
@[simp] theorem State.setNextId_beacon_eq (s : State) (x : Nat) (b : Fin 4) :
    (s.setNextId x).beacon b = s.beacon b := rfl
@[simp] theorem State.setWaiting_beacon_eq (s : State) (x : List Nat) (b : Fin 4) :
    (s.setWaiting x).beacon b = s.beacon b := rfl
@[simp] theorem State.setWalkList_beacon_eq (s : State) (x : List WalkEntry) (b : Fin 4) :
    (s.setWalkList x).beacon b = s.beacon b := rfl
@[simp] theorem State.setWalk_beacon_eq (s : State) (x : Option Walk) (b : Fin 4) :
    (s.setWalk x).beacon b = s.beacon b := rfl
@[simp] theorem State.setRebuild_beacon_eq (s : State) (x : Option Rebuild) (b : Fin 4) :
    (s.setRebuild x).beacon b = s.beacon b := rfl
@[simp] theorem State.setStorm_beacon_eq (s : State) (x : Storm) (b : Fin 4) :
    (s.setStorm x).beacon b = s.beacon b := rfl
@[simp] theorem State.setTrunk_beacon_eq (s : State) (x : Trunk) (b : Fin 4) :
    (s.setTrunk x).beacon b = s.beacon b := rfl
@[simp] theorem State.setFreeCount_beacon_eq (s : State) (x : Nat) (b : Fin 4) :
    (s.setFreeCount x).beacon b = s.beacon b := rfl
@[simp] theorem State.setOwed_beacon_eq (s : State) (x : List TickWork) (b : Fin 4) :
    (s.setOwed x).beacon b = s.beacon b := rfl
@[simp] theorem State.setPending_beacon_eq (s : State) (x : List Instr) (b : Fin 4) :
    (s.setPending x).beacon b = s.beacon b := rfl

@[simp] theorem State.setResetHeld_isOwn_eq (s : State) (x : Bool) (addr : Byte) :
    (s.setResetHeld x).isOwn addr = s.isOwn addr := rfl
@[simp] theorem State.setMode_isOwn_eq (s : State) (x : Mode) (addr : Byte) :
    (s.setMode x).isOwn addr = s.isOwn addr := rfl
@[simp] theorem State.setTime_isOwn_eq (s : State) (x : TimeBase) (addr : Byte) :
    (s.setTime x).isOwn addr = s.isOwn addr := rfl
@[simp] theorem State.setAssets_isOwn_eq (s : State) (x : Table Asset) (addr : Byte) :
    (s.setAssets x).isOwn addr = s.isOwn addr := rfl
@[simp] theorem State.setOutstations_isOwn_eq (s : State) (x : Table Outstation) (addr : Byte) :
    (s.setOutstations x).isOwn addr = s.isOwn addr := rfl
@[simp] theorem State.setLines_isOwn_eq (s : State) (x : Vector Line 4) (addr : Byte) :
    (s.setLines x).isOwn addr = s.isOwn addr := rfl
@[simp] theorem State.setPoints_isOwn_eq (s : State) (x : Table Point) (addr : Byte) :
    (s.setPoints x).isOwn addr = s.isOwn addr := rfl
@[simp] theorem State.setDrops_isOwn_eq (s : State) (x : Nat) (addr : Byte) :
    (s.setDrops x).isOwn addr = s.isOwn addr := rfl
@[simp] theorem State.setFaultProfiles_isOwn_eq (s : State) (x : Vector FaultProfile 16) (addr : Byte) :
    (s.setFaultProfiles x).isOwn addr = s.isOwn addr := rfl
@[simp] theorem State.setLoopProfiles_isOwn_eq (s : State) (x : Vector LoopProfile 8) (addr : Byte) :
    (s.setLoopProfiles x).isOwn addr = s.isOwn addr := rfl
@[simp] theorem State.setRecords_isOwn_eq (s : State) (x : Table FaultRecord) (addr : Byte) :
    (s.setRecords x).isOwn addr = s.isOwn addr := rfl
@[simp] theorem State.setNextId_isOwn_eq (s : State) (x : Nat) (addr : Byte) :
    (s.setNextId x).isOwn addr = s.isOwn addr := rfl
@[simp] theorem State.setWaiting_isOwn_eq (s : State) (x : List Nat) (addr : Byte) :
    (s.setWaiting x).isOwn addr = s.isOwn addr := rfl
@[simp] theorem State.setWalkList_isOwn_eq (s : State) (x : List WalkEntry) (addr : Byte) :
    (s.setWalkList x).isOwn addr = s.isOwn addr := rfl
@[simp] theorem State.setWalk_isOwn_eq (s : State) (x : Option Walk) (addr : Byte) :
    (s.setWalk x).isOwn addr = s.isOwn addr := rfl
@[simp] theorem State.setRebuild_isOwn_eq (s : State) (x : Option Rebuild) (addr : Byte) :
    (s.setRebuild x).isOwn addr = s.isOwn addr := rfl
@[simp] theorem State.setStorm_isOwn_eq (s : State) (x : Storm) (addr : Byte) :
    (s.setStorm x).isOwn addr = s.isOwn addr := rfl
@[simp] theorem State.setBeacons_isOwn_eq (s : State) (x : Vector Beacon 4) (addr : Byte) :
    (s.setBeacons x).isOwn addr = s.isOwn addr := rfl
@[simp] theorem State.setFreeCount_isOwn_eq (s : State) (x : Nat) (addr : Byte) :
    (s.setFreeCount x).isOwn addr = s.isOwn addr := rfl
@[simp] theorem State.setOwed_isOwn_eq (s : State) (x : List TickWork) (addr : Byte) :
    (s.setOwed x).isOwn addr = s.isOwn addr := rfl
@[simp] theorem State.setPending_isOwn_eq (s : State) (x : List Instr) (addr : Byte) :
    (s.setPending x).isOwn addr = s.isOwn addr := rfl

@[simp] theorem State.setResetHeld_lineState_eq (s : State) (x : Bool) (k : Fin 4) :
    (s.setResetHeld x).lineState k = s.lineState k := rfl
@[simp] theorem State.setTime_lineState_eq (s : State) (x : TimeBase) (k : Fin 4) :
    (s.setTime x).lineState k = s.lineState k := rfl
@[simp] theorem State.setAssets_lineState_eq (s : State) (x : Table Asset) (k : Fin 4) :
    (s.setAssets x).lineState k = s.lineState k := rfl
@[simp] theorem State.setOutstations_lineState_eq (s : State) (x : Table Outstation) (k : Fin 4) :
    (s.setOutstations x).lineState k = s.lineState k := rfl
@[simp] theorem State.setPoints_lineState_eq (s : State) (x : Table Point) (k : Fin 4) :
    (s.setPoints x).lineState k = s.lineState k := rfl
@[simp] theorem State.setDrops_lineState_eq (s : State) (x : Nat) (k : Fin 4) :
    (s.setDrops x).lineState k = s.lineState k := rfl
@[simp] theorem State.setFaultProfiles_lineState_eq (s : State) (x : Vector FaultProfile 16) (k : Fin 4) :
    (s.setFaultProfiles x).lineState k = s.lineState k := rfl
@[simp] theorem State.setLoopProfiles_lineState_eq (s : State) (x : Vector LoopProfile 8) (k : Fin 4) :
    (s.setLoopProfiles x).lineState k = s.lineState k := rfl
@[simp] theorem State.setRecords_lineState_eq (s : State) (x : Table FaultRecord) (k : Fin 4) :
    (s.setRecords x).lineState k = s.lineState k := rfl
@[simp] theorem State.setNextId_lineState_eq (s : State) (x : Nat) (k : Fin 4) :
    (s.setNextId x).lineState k = s.lineState k := rfl
@[simp] theorem State.setWaiting_lineState_eq (s : State) (x : List Nat) (k : Fin 4) :
    (s.setWaiting x).lineState k = s.lineState k := rfl
@[simp] theorem State.setWalkList_lineState_eq (s : State) (x : List WalkEntry) (k : Fin 4) :
    (s.setWalkList x).lineState k = s.lineState k := rfl
@[simp] theorem State.setWalk_lineState_eq (s : State) (x : Option Walk) (k : Fin 4) :
    (s.setWalk x).lineState k = s.lineState k := rfl
@[simp] theorem State.setRebuild_lineState_eq (s : State) (x : Option Rebuild) (k : Fin 4) :
    (s.setRebuild x).lineState k = s.lineState k := rfl
@[simp] theorem State.setStorm_lineState_eq (s : State) (x : Storm) (k : Fin 4) :
    (s.setStorm x).lineState k = s.lineState k := rfl
@[simp] theorem State.setBeacons_lineState_eq (s : State) (x : Vector Beacon 4) (k : Fin 4) :
    (s.setBeacons x).lineState k = s.lineState k := rfl
@[simp] theorem State.setTrunk_lineState_eq (s : State) (x : Trunk) (k : Fin 4) :
    (s.setTrunk x).lineState k = s.lineState k := rfl
@[simp] theorem State.setFreeCount_lineState_eq (s : State) (x : Nat) (k : Fin 4) :
    (s.setFreeCount x).lineState k = s.lineState k := rfl
@[simp] theorem State.setOwed_lineState_eq (s : State) (x : List TickWork) (k : Fin 4) :
    (s.setOwed x).lineState k = s.lineState k := rfl
@[simp] theorem State.setPending_lineState_eq (s : State) (x : List Instr) (k : Fin 4) :
    (s.setPending x).lineState k = s.lineState k := rfl

@[simp] theorem State.setResetHeld_lineFree_eq (s : State) (x : Bool) (k : Fin 4) :
    (s.setResetHeld x).lineFree k = s.lineFree k := rfl
@[simp] theorem State.setTime_lineFree_eq (s : State) (x : TimeBase) (k : Fin 4) :
    (s.setTime x).lineFree k = s.lineFree k := rfl
@[simp] theorem State.setAssets_lineFree_eq (s : State) (x : Table Asset) (k : Fin 4) :
    (s.setAssets x).lineFree k = s.lineFree k := rfl
@[simp] theorem State.setOutstations_lineFree_eq (s : State) (x : Table Outstation) (k : Fin 4) :
    (s.setOutstations x).lineFree k = s.lineFree k := rfl
@[simp] theorem State.setPoints_lineFree_eq (s : State) (x : Table Point) (k : Fin 4) :
    (s.setPoints x).lineFree k = s.lineFree k := rfl
@[simp] theorem State.setDrops_lineFree_eq (s : State) (x : Nat) (k : Fin 4) :
    (s.setDrops x).lineFree k = s.lineFree k := rfl
@[simp] theorem State.setFaultProfiles_lineFree_eq (s : State) (x : Vector FaultProfile 16) (k : Fin 4) :
    (s.setFaultProfiles x).lineFree k = s.lineFree k := rfl
@[simp] theorem State.setLoopProfiles_lineFree_eq (s : State) (x : Vector LoopProfile 8) (k : Fin 4) :
    (s.setLoopProfiles x).lineFree k = s.lineFree k := rfl
@[simp] theorem State.setRecords_lineFree_eq (s : State) (x : Table FaultRecord) (k : Fin 4) :
    (s.setRecords x).lineFree k = s.lineFree k := rfl
@[simp] theorem State.setNextId_lineFree_eq (s : State) (x : Nat) (k : Fin 4) :
    (s.setNextId x).lineFree k = s.lineFree k := rfl
@[simp] theorem State.setWaiting_lineFree_eq (s : State) (x : List Nat) (k : Fin 4) :
    (s.setWaiting x).lineFree k = s.lineFree k := rfl
@[simp] theorem State.setWalkList_lineFree_eq (s : State) (x : List WalkEntry) (k : Fin 4) :
    (s.setWalkList x).lineFree k = s.lineFree k := rfl
@[simp] theorem State.setWalk_lineFree_eq (s : State) (x : Option Walk) (k : Fin 4) :
    (s.setWalk x).lineFree k = s.lineFree k := rfl
@[simp] theorem State.setRebuild_lineFree_eq (s : State) (x : Option Rebuild) (k : Fin 4) :
    (s.setRebuild x).lineFree k = s.lineFree k := rfl
@[simp] theorem State.setStorm_lineFree_eq (s : State) (x : Storm) (k : Fin 4) :
    (s.setStorm x).lineFree k = s.lineFree k := rfl
@[simp] theorem State.setBeacons_lineFree_eq (s : State) (x : Vector Beacon 4) (k : Fin 4) :
    (s.setBeacons x).lineFree k = s.lineFree k := rfl
@[simp] theorem State.setTrunk_lineFree_eq (s : State) (x : Trunk) (k : Fin 4) :
    (s.setTrunk x).lineFree k = s.lineFree k := rfl
@[simp] theorem State.setFreeCount_lineFree_eq (s : State) (x : Nat) (k : Fin 4) :
    (s.setFreeCount x).lineFree k = s.lineFree k := rfl
@[simp] theorem State.setOwed_lineFree_eq (s : State) (x : List TickWork) (k : Fin 4) :
    (s.setOwed x).lineFree k = s.lineFree k := rfl
@[simp] theorem State.setPending_lineFree_eq (s : State) (x : List Instr) (k : Fin 4) :
    (s.setPending x).lineFree k = s.lineFree k := rfl

@[simp] theorem State.setResetHeld_awaitedOn_eq (s : State) (x : Bool) (k : Fin 4) :
    (s.setResetHeld x).awaitedOn k = s.awaitedOn k := rfl
@[simp] theorem State.setTime_awaitedOn_eq (s : State) (x : TimeBase) (k : Fin 4) :
    (s.setTime x).awaitedOn k = s.awaitedOn k := rfl
@[simp] theorem State.setAssets_awaitedOn_eq (s : State) (x : Table Asset) (k : Fin 4) :
    (s.setAssets x).awaitedOn k = s.awaitedOn k := rfl
@[simp] theorem State.setOutstations_awaitedOn_eq (s : State) (x : Table Outstation) (k : Fin 4) :
    (s.setOutstations x).awaitedOn k = s.awaitedOn k := rfl
@[simp] theorem State.setPoints_awaitedOn_eq (s : State) (x : Table Point) (k : Fin 4) :
    (s.setPoints x).awaitedOn k = s.awaitedOn k := rfl
@[simp] theorem State.setDrops_awaitedOn_eq (s : State) (x : Nat) (k : Fin 4) :
    (s.setDrops x).awaitedOn k = s.awaitedOn k := rfl
@[simp] theorem State.setFaultProfiles_awaitedOn_eq (s : State) (x : Vector FaultProfile 16) (k : Fin 4) :
    (s.setFaultProfiles x).awaitedOn k = s.awaitedOn k := rfl
@[simp] theorem State.setLoopProfiles_awaitedOn_eq (s : State) (x : Vector LoopProfile 8) (k : Fin 4) :
    (s.setLoopProfiles x).awaitedOn k = s.awaitedOn k := rfl
@[simp] theorem State.setRecords_awaitedOn_eq (s : State) (x : Table FaultRecord) (k : Fin 4) :
    (s.setRecords x).awaitedOn k = s.awaitedOn k := rfl
@[simp] theorem State.setNextId_awaitedOn_eq (s : State) (x : Nat) (k : Fin 4) :
    (s.setNextId x).awaitedOn k = s.awaitedOn k := rfl
@[simp] theorem State.setWaiting_awaitedOn_eq (s : State) (x : List Nat) (k : Fin 4) :
    (s.setWaiting x).awaitedOn k = s.awaitedOn k := rfl
@[simp] theorem State.setWalkList_awaitedOn_eq (s : State) (x : List WalkEntry) (k : Fin 4) :
    (s.setWalkList x).awaitedOn k = s.awaitedOn k := rfl
@[simp] theorem State.setWalk_awaitedOn_eq (s : State) (x : Option Walk) (k : Fin 4) :
    (s.setWalk x).awaitedOn k = s.awaitedOn k := rfl
@[simp] theorem State.setRebuild_awaitedOn_eq (s : State) (x : Option Rebuild) (k : Fin 4) :
    (s.setRebuild x).awaitedOn k = s.awaitedOn k := rfl
@[simp] theorem State.setStorm_awaitedOn_eq (s : State) (x : Storm) (k : Fin 4) :
    (s.setStorm x).awaitedOn k = s.awaitedOn k := rfl
@[simp] theorem State.setBeacons_awaitedOn_eq (s : State) (x : Vector Beacon 4) (k : Fin 4) :
    (s.setBeacons x).awaitedOn k = s.awaitedOn k := rfl
@[simp] theorem State.setTrunk_awaitedOn_eq (s : State) (x : Trunk) (k : Fin 4) :
    (s.setTrunk x).awaitedOn k = s.awaitedOn k := rfl
@[simp] theorem State.setFreeCount_awaitedOn_eq (s : State) (x : Nat) (k : Fin 4) :
    (s.setFreeCount x).awaitedOn k = s.awaitedOn k := rfl
@[simp] theorem State.setOwed_awaitedOn_eq (s : State) (x : List TickWork) (k : Fin 4) :
    (s.setOwed x).awaitedOn k = s.awaitedOn k := rfl
@[simp] theorem State.setPending_awaitedOn_eq (s : State) (x : List Instr) (k : Fin 4) :
    (s.setPending x).awaitedOn k = s.awaitedOn k := rfl

@[simp] theorem State.setResetHeld_stations_eq (s : State) (x : Bool) (k : Fin 4) :
    (s.setResetHeld x).stations k = s.stations k := rfl
@[simp] theorem State.setMode_stations_eq (s : State) (x : Mode) (k : Fin 4) :
    (s.setMode x).stations k = s.stations k := rfl
@[simp] theorem State.setTime_stations_eq (s : State) (x : TimeBase) (k : Fin 4) :
    (s.setTime x).stations k = s.stations k := rfl
@[simp] theorem State.setAssets_stations_eq (s : State) (x : Table Asset) (k : Fin 4) :
    (s.setAssets x).stations k = s.stations k := rfl
@[simp] theorem State.setLines_stations_eq (s : State) (x : Vector Line 4) (k : Fin 4) :
    (s.setLines x).stations k = s.stations k := rfl
@[simp] theorem State.setPoints_stations_eq (s : State) (x : Table Point) (k : Fin 4) :
    (s.setPoints x).stations k = s.stations k := rfl
@[simp] theorem State.setDrops_stations_eq (s : State) (x : Nat) (k : Fin 4) :
    (s.setDrops x).stations k = s.stations k := rfl
@[simp] theorem State.setFaultProfiles_stations_eq (s : State) (x : Vector FaultProfile 16) (k : Fin 4) :
    (s.setFaultProfiles x).stations k = s.stations k := rfl
@[simp] theorem State.setLoopProfiles_stations_eq (s : State) (x : Vector LoopProfile 8) (k : Fin 4) :
    (s.setLoopProfiles x).stations k = s.stations k := rfl
@[simp] theorem State.setRecords_stations_eq (s : State) (x : Table FaultRecord) (k : Fin 4) :
    (s.setRecords x).stations k = s.stations k := rfl
@[simp] theorem State.setNextId_stations_eq (s : State) (x : Nat) (k : Fin 4) :
    (s.setNextId x).stations k = s.stations k := rfl
@[simp] theorem State.setWaiting_stations_eq (s : State) (x : List Nat) (k : Fin 4) :
    (s.setWaiting x).stations k = s.stations k := rfl
@[simp] theorem State.setWalkList_stations_eq (s : State) (x : List WalkEntry) (k : Fin 4) :
    (s.setWalkList x).stations k = s.stations k := rfl
@[simp] theorem State.setWalk_stations_eq (s : State) (x : Option Walk) (k : Fin 4) :
    (s.setWalk x).stations k = s.stations k := rfl
@[simp] theorem State.setRebuild_stations_eq (s : State) (x : Option Rebuild) (k : Fin 4) :
    (s.setRebuild x).stations k = s.stations k := rfl
@[simp] theorem State.setStorm_stations_eq (s : State) (x : Storm) (k : Fin 4) :
    (s.setStorm x).stations k = s.stations k := rfl
@[simp] theorem State.setBeacons_stations_eq (s : State) (x : Vector Beacon 4) (k : Fin 4) :
    (s.setBeacons x).stations k = s.stations k := rfl
@[simp] theorem State.setTrunk_stations_eq (s : State) (x : Trunk) (k : Fin 4) :
    (s.setTrunk x).stations k = s.stations k := rfl
@[simp] theorem State.setFreeCount_stations_eq (s : State) (x : Nat) (k : Fin 4) :
    (s.setFreeCount x).stations k = s.stations k := rfl
@[simp] theorem State.setOwed_stations_eq (s : State) (x : List TickWork) (k : Fin 4) :
    (s.setOwed x).stations k = s.stations k := rfl
@[simp] theorem State.setPending_stations_eq (s : State) (x : List Instr) (k : Fin 4) :
    (s.setPending x).stations k = s.stations k := rfl

@[simp] theorem State.setResetHeld_pollAddress_eq (s : State) (x : Bool) (k : Fin 4) :
    (s.setResetHeld x).pollAddress k = s.pollAddress k := rfl
@[simp] theorem State.setMode_pollAddress_eq (s : State) (x : Mode) (k : Fin 4) :
    (s.setMode x).pollAddress k = s.pollAddress k := rfl
@[simp] theorem State.setTime_pollAddress_eq (s : State) (x : TimeBase) (k : Fin 4) :
    (s.setTime x).pollAddress k = s.pollAddress k := rfl
@[simp] theorem State.setAssets_pollAddress_eq (s : State) (x : Table Asset) (k : Fin 4) :
    (s.setAssets x).pollAddress k = s.pollAddress k := rfl
@[simp] theorem State.setPoints_pollAddress_eq (s : State) (x : Table Point) (k : Fin 4) :
    (s.setPoints x).pollAddress k = s.pollAddress k := rfl
@[simp] theorem State.setDrops_pollAddress_eq (s : State) (x : Nat) (k : Fin 4) :
    (s.setDrops x).pollAddress k = s.pollAddress k := rfl
@[simp] theorem State.setFaultProfiles_pollAddress_eq (s : State) (x : Vector FaultProfile 16) (k : Fin 4) :
    (s.setFaultProfiles x).pollAddress k = s.pollAddress k := rfl
@[simp] theorem State.setLoopProfiles_pollAddress_eq (s : State) (x : Vector LoopProfile 8) (k : Fin 4) :
    (s.setLoopProfiles x).pollAddress k = s.pollAddress k := rfl
@[simp] theorem State.setRecords_pollAddress_eq (s : State) (x : Table FaultRecord) (k : Fin 4) :
    (s.setRecords x).pollAddress k = s.pollAddress k := rfl
@[simp] theorem State.setNextId_pollAddress_eq (s : State) (x : Nat) (k : Fin 4) :
    (s.setNextId x).pollAddress k = s.pollAddress k := rfl
@[simp] theorem State.setWaiting_pollAddress_eq (s : State) (x : List Nat) (k : Fin 4) :
    (s.setWaiting x).pollAddress k = s.pollAddress k := rfl
@[simp] theorem State.setWalkList_pollAddress_eq (s : State) (x : List WalkEntry) (k : Fin 4) :
    (s.setWalkList x).pollAddress k = s.pollAddress k := rfl
@[simp] theorem State.setWalk_pollAddress_eq (s : State) (x : Option Walk) (k : Fin 4) :
    (s.setWalk x).pollAddress k = s.pollAddress k := rfl
@[simp] theorem State.setRebuild_pollAddress_eq (s : State) (x : Option Rebuild) (k : Fin 4) :
    (s.setRebuild x).pollAddress k = s.pollAddress k := rfl
@[simp] theorem State.setStorm_pollAddress_eq (s : State) (x : Storm) (k : Fin 4) :
    (s.setStorm x).pollAddress k = s.pollAddress k := rfl
@[simp] theorem State.setBeacons_pollAddress_eq (s : State) (x : Vector Beacon 4) (k : Fin 4) :
    (s.setBeacons x).pollAddress k = s.pollAddress k := rfl
@[simp] theorem State.setTrunk_pollAddress_eq (s : State) (x : Trunk) (k : Fin 4) :
    (s.setTrunk x).pollAddress k = s.pollAddress k := rfl
@[simp] theorem State.setFreeCount_pollAddress_eq (s : State) (x : Nat) (k : Fin 4) :
    (s.setFreeCount x).pollAddress k = s.pollAddress k := rfl
@[simp] theorem State.setOwed_pollAddress_eq (s : State) (x : List TickWork) (k : Fin 4) :
    (s.setOwed x).pollAddress k = s.pollAddress k := rfl
@[simp] theorem State.setPending_pollAddress_eq (s : State) (x : List Instr) (k : Fin 4) :
    (s.setPending x).pollAddress k = s.pollAddress k := rfl

@[simp] theorem State.setResetHeld_runningSecond_eq (s : State) (x : Bool) :
    (s.setResetHeld x).runningSecond = s.runningSecond := rfl
@[simp] theorem State.setMode_runningSecond_eq (s : State) (x : Mode) :
    (s.setMode x).runningSecond = s.runningSecond := rfl
@[simp] theorem State.setAssets_runningSecond_eq (s : State) (x : Table Asset) :
    (s.setAssets x).runningSecond = s.runningSecond := rfl
@[simp] theorem State.setOutstations_runningSecond_eq (s : State) (x : Table Outstation) :
    (s.setOutstations x).runningSecond = s.runningSecond := rfl
@[simp] theorem State.setLines_runningSecond_eq (s : State) (x : Vector Line 4) :
    (s.setLines x).runningSecond = s.runningSecond := rfl
@[simp] theorem State.setPoints_runningSecond_eq (s : State) (x : Table Point) :
    (s.setPoints x).runningSecond = s.runningSecond := rfl
@[simp] theorem State.setDrops_runningSecond_eq (s : State) (x : Nat) :
    (s.setDrops x).runningSecond = s.runningSecond := rfl
@[simp] theorem State.setFaultProfiles_runningSecond_eq (s : State) (x : Vector FaultProfile 16) :
    (s.setFaultProfiles x).runningSecond = s.runningSecond := rfl
@[simp] theorem State.setLoopProfiles_runningSecond_eq (s : State) (x : Vector LoopProfile 8) :
    (s.setLoopProfiles x).runningSecond = s.runningSecond := rfl
@[simp] theorem State.setRecords_runningSecond_eq (s : State) (x : Table FaultRecord) :
    (s.setRecords x).runningSecond = s.runningSecond := rfl
@[simp] theorem State.setNextId_runningSecond_eq (s : State) (x : Nat) :
    (s.setNextId x).runningSecond = s.runningSecond := rfl
@[simp] theorem State.setWaiting_runningSecond_eq (s : State) (x : List Nat) :
    (s.setWaiting x).runningSecond = s.runningSecond := rfl
@[simp] theorem State.setWalkList_runningSecond_eq (s : State) (x : List WalkEntry) :
    (s.setWalkList x).runningSecond = s.runningSecond := rfl
@[simp] theorem State.setWalk_runningSecond_eq (s : State) (x : Option Walk) :
    (s.setWalk x).runningSecond = s.runningSecond := rfl
@[simp] theorem State.setRebuild_runningSecond_eq (s : State) (x : Option Rebuild) :
    (s.setRebuild x).runningSecond = s.runningSecond := rfl
@[simp] theorem State.setStorm_runningSecond_eq (s : State) (x : Storm) :
    (s.setStorm x).runningSecond = s.runningSecond := rfl
@[simp] theorem State.setBeacons_runningSecond_eq (s : State) (x : Vector Beacon 4) :
    (s.setBeacons x).runningSecond = s.runningSecond := rfl
@[simp] theorem State.setTrunk_runningSecond_eq (s : State) (x : Trunk) :
    (s.setTrunk x).runningSecond = s.runningSecond := rfl
@[simp] theorem State.setFreeCount_runningSecond_eq (s : State) (x : Nat) :
    (s.setFreeCount x).runningSecond = s.runningSecond := rfl
@[simp] theorem State.setOwed_runningSecond_eq (s : State) (x : List TickWork) :
    (s.setOwed x).runningSecond = s.runningSecond := rfl
@[simp] theorem State.setPending_runningSecond_eq (s : State) (x : List Instr) :
    (s.setPending x).runningSecond = s.runningSecond := rfl

@[simp] theorem State.setResetHeld_noticeTick_eq (s : State) (x : Bool) :
    (s.setResetHeld x).noticeTick = s.noticeTick := rfl
@[simp] theorem State.setMode_noticeTick_eq (s : State) (x : Mode) : (s.setMode x).noticeTick = s.noticeTick := rfl
@[simp] theorem State.setAssets_noticeTick_eq (s : State) (x : Table Asset) :
    (s.setAssets x).noticeTick = s.noticeTick := rfl
@[simp] theorem State.setOutstations_noticeTick_eq (s : State) (x : Table Outstation) :
    (s.setOutstations x).noticeTick = s.noticeTick := rfl
@[simp] theorem State.setLines_noticeTick_eq (s : State) (x : Vector Line 4) :
    (s.setLines x).noticeTick = s.noticeTick := rfl
@[simp] theorem State.setPoints_noticeTick_eq (s : State) (x : Table Point) :
    (s.setPoints x).noticeTick = s.noticeTick := rfl
@[simp] theorem State.setDrops_noticeTick_eq (s : State) (x : Nat) : (s.setDrops x).noticeTick = s.noticeTick := rfl
@[simp] theorem State.setFaultProfiles_noticeTick_eq (s : State) (x : Vector FaultProfile 16) :
    (s.setFaultProfiles x).noticeTick = s.noticeTick := rfl
@[simp] theorem State.setLoopProfiles_noticeTick_eq (s : State) (x : Vector LoopProfile 8) :
    (s.setLoopProfiles x).noticeTick = s.noticeTick := rfl
@[simp] theorem State.setRecords_noticeTick_eq (s : State) (x : Table FaultRecord) :
    (s.setRecords x).noticeTick = s.noticeTick := rfl
@[simp] theorem State.setNextId_noticeTick_eq (s : State) (x : Nat) : (s.setNextId x).noticeTick = s.noticeTick := rfl
@[simp] theorem State.setWaiting_noticeTick_eq (s : State) (x : List Nat) :
    (s.setWaiting x).noticeTick = s.noticeTick := rfl
@[simp] theorem State.setWalkList_noticeTick_eq (s : State) (x : List WalkEntry) :
    (s.setWalkList x).noticeTick = s.noticeTick := rfl
@[simp] theorem State.setWalk_noticeTick_eq (s : State) (x : Option Walk) :
    (s.setWalk x).noticeTick = s.noticeTick := rfl
@[simp] theorem State.setRebuild_noticeTick_eq (s : State) (x : Option Rebuild) :
    (s.setRebuild x).noticeTick = s.noticeTick := rfl
@[simp] theorem State.setBeacons_noticeTick_eq (s : State) (x : Vector Beacon 4) :
    (s.setBeacons x).noticeTick = s.noticeTick := rfl
@[simp] theorem State.setTrunk_noticeTick_eq (s : State) (x : Trunk) : (s.setTrunk x).noticeTick = s.noticeTick := rfl
@[simp] theorem State.setFreeCount_noticeTick_eq (s : State) (x : Nat) :
    (s.setFreeCount x).noticeTick = s.noticeTick := rfl
@[simp] theorem State.setOwed_noticeTick_eq (s : State) (x : List TickWork) :
    (s.setOwed x).noticeTick = s.noticeTick := rfl
@[simp] theorem State.setPending_noticeTick_eq (s : State) (x : List Instr) :
    (s.setPending x).noticeTick = s.noticeTick := rfl

@[simp] theorem State.setResetHeld_dispatchQueue_eq (s : State) (x : Bool) :
    (s.setResetHeld x).dispatchQueue = s.dispatchQueue := rfl
@[simp] theorem State.setMode_dispatchQueue_eq (s : State) (x : Mode) :
    (s.setMode x).dispatchQueue = s.dispatchQueue := rfl
@[simp] theorem State.setTime_dispatchQueue_eq (s : State) (x : TimeBase) :
    (s.setTime x).dispatchQueue = s.dispatchQueue := rfl
@[simp] theorem State.setAssets_dispatchQueue_eq (s : State) (x : Table Asset) :
    (s.setAssets x).dispatchQueue = s.dispatchQueue := rfl
@[simp] theorem State.setOutstations_dispatchQueue_eq (s : State) (x : Table Outstation) :
    (s.setOutstations x).dispatchQueue = s.dispatchQueue := rfl
@[simp] theorem State.setLines_dispatchQueue_eq (s : State) (x : Vector Line 4) :
    (s.setLines x).dispatchQueue = s.dispatchQueue := rfl
@[simp] theorem State.setPoints_dispatchQueue_eq (s : State) (x : Table Point) :
    (s.setPoints x).dispatchQueue = s.dispatchQueue := rfl
@[simp] theorem State.setDrops_dispatchQueue_eq (s : State) (x : Nat) :
    (s.setDrops x).dispatchQueue = s.dispatchQueue := rfl
@[simp] theorem State.setFaultProfiles_dispatchQueue_eq (s : State) (x : Vector FaultProfile 16) :
    (s.setFaultProfiles x).dispatchQueue = s.dispatchQueue := rfl
@[simp] theorem State.setLoopProfiles_dispatchQueue_eq (s : State) (x : Vector LoopProfile 8) :
    (s.setLoopProfiles x).dispatchQueue = s.dispatchQueue := rfl
@[simp] theorem State.setNextId_dispatchQueue_eq (s : State) (x : Nat) :
    (s.setNextId x).dispatchQueue = s.dispatchQueue := rfl
@[simp] theorem State.setWaiting_dispatchQueue_eq (s : State) (x : List Nat) :
    (s.setWaiting x).dispatchQueue = s.dispatchQueue := rfl
@[simp] theorem State.setWalkList_dispatchQueue_eq (s : State) (x : List WalkEntry) :
    (s.setWalkList x).dispatchQueue = s.dispatchQueue := rfl
@[simp] theorem State.setWalk_dispatchQueue_eq (s : State) (x : Option Walk) :
    (s.setWalk x).dispatchQueue = s.dispatchQueue := rfl
@[simp] theorem State.setRebuild_dispatchQueue_eq (s : State) (x : Option Rebuild) :
    (s.setRebuild x).dispatchQueue = s.dispatchQueue := rfl
@[simp] theorem State.setStorm_dispatchQueue_eq (s : State) (x : Storm) :
    (s.setStorm x).dispatchQueue = s.dispatchQueue := rfl
@[simp] theorem State.setBeacons_dispatchQueue_eq (s : State) (x : Vector Beacon 4) :
    (s.setBeacons x).dispatchQueue = s.dispatchQueue := rfl
@[simp] theorem State.setTrunk_dispatchQueue_eq (s : State) (x : Trunk) :
    (s.setTrunk x).dispatchQueue = s.dispatchQueue := rfl
@[simp] theorem State.setFreeCount_dispatchQueue_eq (s : State) (x : Nat) :
    (s.setFreeCount x).dispatchQueue = s.dispatchQueue := rfl
@[simp] theorem State.setOwed_dispatchQueue_eq (s : State) (x : List TickWork) :
    (s.setOwed x).dispatchQueue = s.dispatchQueue := rfl
@[simp] theorem State.setPending_dispatchQueue_eq (s : State) (x : List Instr) :
    (s.setPending x).dispatchQueue = s.dispatchQueue := rfl

@[simp] theorem State.setResetHeld_openRecords_eq (s : State) (x : Bool) :
    (s.setResetHeld x).openRecords = s.openRecords := rfl
@[simp] theorem State.setMode_openRecords_eq (s : State) (x : Mode) : (s.setMode x).openRecords = s.openRecords := rfl
@[simp] theorem State.setTime_openRecords_eq (s : State) (x : TimeBase) :
    (s.setTime x).openRecords = s.openRecords := rfl
@[simp] theorem State.setAssets_openRecords_eq (s : State) (x : Table Asset) :
    (s.setAssets x).openRecords = s.openRecords := rfl
@[simp] theorem State.setOutstations_openRecords_eq (s : State) (x : Table Outstation) :
    (s.setOutstations x).openRecords = s.openRecords := rfl
@[simp] theorem State.setLines_openRecords_eq (s : State) (x : Vector Line 4) :
    (s.setLines x).openRecords = s.openRecords := rfl
@[simp] theorem State.setPoints_openRecords_eq (s : State) (x : Table Point) :
    (s.setPoints x).openRecords = s.openRecords := rfl
@[simp] theorem State.setDrops_openRecords_eq (s : State) (x : Nat) :
    (s.setDrops x).openRecords = s.openRecords := rfl
@[simp] theorem State.setFaultProfiles_openRecords_eq (s : State) (x : Vector FaultProfile 16) :
    (s.setFaultProfiles x).openRecords = s.openRecords := rfl
@[simp] theorem State.setLoopProfiles_openRecords_eq (s : State) (x : Vector LoopProfile 8) :
    (s.setLoopProfiles x).openRecords = s.openRecords := rfl
@[simp] theorem State.setNextId_openRecords_eq (s : State) (x : Nat) :
    (s.setNextId x).openRecords = s.openRecords := rfl
@[simp] theorem State.setWaiting_openRecords_eq (s : State) (x : List Nat) :
    (s.setWaiting x).openRecords = s.openRecords := rfl
@[simp] theorem State.setWalkList_openRecords_eq (s : State) (x : List WalkEntry) :
    (s.setWalkList x).openRecords = s.openRecords := rfl
@[simp] theorem State.setWalk_openRecords_eq (s : State) (x : Option Walk) :
    (s.setWalk x).openRecords = s.openRecords := rfl
@[simp] theorem State.setRebuild_openRecords_eq (s : State) (x : Option Rebuild) :
    (s.setRebuild x).openRecords = s.openRecords := rfl
@[simp] theorem State.setStorm_openRecords_eq (s : State) (x : Storm) :
    (s.setStorm x).openRecords = s.openRecords := rfl
@[simp] theorem State.setBeacons_openRecords_eq (s : State) (x : Vector Beacon 4) :
    (s.setBeacons x).openRecords = s.openRecords := rfl
@[simp] theorem State.setTrunk_openRecords_eq (s : State) (x : Trunk) :
    (s.setTrunk x).openRecords = s.openRecords := rfl
@[simp] theorem State.setFreeCount_openRecords_eq (s : State) (x : Nat) :
    (s.setFreeCount x).openRecords = s.openRecords := rfl
@[simp] theorem State.setOwed_openRecords_eq (s : State) (x : List TickWork) :
    (s.setOwed x).openRecords = s.openRecords := rfl
@[simp] theorem State.setPending_openRecords_eq (s : State) (x : List Instr) :
    (s.setPending x).openRecords = s.openRecords := rfl

@[simp] theorem State.setResetHeld_pendingPoints_eq (s : State) (x : Bool) :
    (s.setResetHeld x).pendingPoints = s.pendingPoints := rfl
@[simp] theorem State.setMode_pendingPoints_eq (s : State) (x : Mode) :
    (s.setMode x).pendingPoints = s.pendingPoints := rfl
@[simp] theorem State.setTime_pendingPoints_eq (s : State) (x : TimeBase) :
    (s.setTime x).pendingPoints = s.pendingPoints := rfl
@[simp] theorem State.setAssets_pendingPoints_eq (s : State) (x : Table Asset) :
    (s.setAssets x).pendingPoints = s.pendingPoints := rfl
@[simp] theorem State.setOutstations_pendingPoints_eq (s : State) (x : Table Outstation) :
    (s.setOutstations x).pendingPoints = s.pendingPoints := rfl
@[simp] theorem State.setLines_pendingPoints_eq (s : State) (x : Vector Line 4) :
    (s.setLines x).pendingPoints = s.pendingPoints := rfl
@[simp] theorem State.setDrops_pendingPoints_eq (s : State) (x : Nat) :
    (s.setDrops x).pendingPoints = s.pendingPoints := rfl
@[simp] theorem State.setFaultProfiles_pendingPoints_eq (s : State) (x : Vector FaultProfile 16) :
    (s.setFaultProfiles x).pendingPoints = s.pendingPoints := rfl
@[simp] theorem State.setLoopProfiles_pendingPoints_eq (s : State) (x : Vector LoopProfile 8) :
    (s.setLoopProfiles x).pendingPoints = s.pendingPoints := rfl
@[simp] theorem State.setRecords_pendingPoints_eq (s : State) (x : Table FaultRecord) :
    (s.setRecords x).pendingPoints = s.pendingPoints := rfl
@[simp] theorem State.setNextId_pendingPoints_eq (s : State) (x : Nat) :
    (s.setNextId x).pendingPoints = s.pendingPoints := rfl
@[simp] theorem State.setWaiting_pendingPoints_eq (s : State) (x : List Nat) :
    (s.setWaiting x).pendingPoints = s.pendingPoints := rfl
@[simp] theorem State.setWalkList_pendingPoints_eq (s : State) (x : List WalkEntry) :
    (s.setWalkList x).pendingPoints = s.pendingPoints := rfl
@[simp] theorem State.setWalk_pendingPoints_eq (s : State) (x : Option Walk) :
    (s.setWalk x).pendingPoints = s.pendingPoints := rfl
@[simp] theorem State.setRebuild_pendingPoints_eq (s : State) (x : Option Rebuild) :
    (s.setRebuild x).pendingPoints = s.pendingPoints := rfl
@[simp] theorem State.setStorm_pendingPoints_eq (s : State) (x : Storm) :
    (s.setStorm x).pendingPoints = s.pendingPoints := rfl
@[simp] theorem State.setBeacons_pendingPoints_eq (s : State) (x : Vector Beacon 4) :
    (s.setBeacons x).pendingPoints = s.pendingPoints := rfl
@[simp] theorem State.setTrunk_pendingPoints_eq (s : State) (x : Trunk) :
    (s.setTrunk x).pendingPoints = s.pendingPoints := rfl
@[simp] theorem State.setFreeCount_pendingPoints_eq (s : State) (x : Nat) :
    (s.setFreeCount x).pendingPoints = s.pendingPoints := rfl
@[simp] theorem State.setOwed_pendingPoints_eq (s : State) (x : List TickWork) :
    (s.setOwed x).pendingPoints = s.pendingPoints := rfl
@[simp] theorem State.setPending_pendingPoints_eq (s : State) (x : List Instr) :
    (s.setPending x).pendingPoints = s.pendingPoints := rfl

/-! ## Operations that touch one field -/

@[simp] theorem State.putAsset_resetHeld (s : State) (a : Nat) (x : Asset) :
    (s.putAsset a x).resetHeld = s.resetHeld := rfl
@[simp] theorem State.putAsset_mode (s : State) (a : Nat) (x : Asset) : (s.putAsset a x).mode = s.mode := rfl
@[simp] theorem State.putAsset_time (s : State) (a : Nat) (x : Asset) : (s.putAsset a x).time = s.time := rfl
@[simp] theorem State.putAsset_owed (s : State) (a : Nat) (x : Asset) : (s.putAsset a x).owed = s.owed := rfl
@[simp] theorem State.putAsset_outstations (s : State) (a : Nat) (x : Asset) :
    (s.putAsset a x).outstations = s.outstations := rfl
@[simp] theorem State.putAsset_lines (s : State) (a : Nat) (x : Asset) : (s.putAsset a x).lines = s.lines := rfl
@[simp] theorem State.putAsset_points (s : State) (a : Nat) (x : Asset) : (s.putAsset a x).points = s.points := rfl
@[simp] theorem State.putAsset_drops (s : State) (a : Nat) (x : Asset) : (s.putAsset a x).drops = s.drops := rfl
@[simp] theorem State.putAsset_faultProfiles (s : State) (a : Nat) (x : Asset) :
    (s.putAsset a x).faultProfiles = s.faultProfiles := rfl
@[simp] theorem State.putAsset_loopProfiles (s : State) (a : Nat) (x : Asset) :
    (s.putAsset a x).loopProfiles = s.loopProfiles := rfl
@[simp] theorem State.putAsset_records (s : State) (a : Nat) (x : Asset) : (s.putAsset a x).records = s.records := rfl
@[simp] theorem State.putAsset_nextId (s : State) (a : Nat) (x : Asset) : (s.putAsset a x).nextId = s.nextId := rfl
@[simp] theorem State.putAsset_waiting (s : State) (a : Nat) (x : Asset) : (s.putAsset a x).waiting = s.waiting := rfl
@[simp] theorem State.putAsset_walkList (s : State) (a : Nat) (x : Asset) :
    (s.putAsset a x).walkList = s.walkList := rfl
@[simp] theorem State.putAsset_walk (s : State) (a : Nat) (x : Asset) : (s.putAsset a x).walk = s.walk := rfl
@[simp] theorem State.putAsset_rebuild (s : State) (a : Nat) (x : Asset) : (s.putAsset a x).rebuild = s.rebuild := rfl
@[simp] theorem State.putAsset_storm (s : State) (a : Nat) (x : Asset) : (s.putAsset a x).storm = s.storm := rfl
@[simp] theorem State.putAsset_beacons (s : State) (a : Nat) (x : Asset) : (s.putAsset a x).beacons = s.beacons := rfl
@[simp] theorem State.putAsset_trunk (s : State) (a : Nat) (x : Asset) : (s.putAsset a x).trunk = s.trunk := rfl
@[simp] theorem State.putAsset_freeCount (s : State) (a : Nat) (x : Asset) :
    (s.putAsset a x).freeCount = s.freeCount := rfl
@[simp] theorem State.putAsset_pending (s : State) (a : Nat) (x : Asset) : (s.putAsset a x).pending = s.pending := rfl

@[simp] theorem State.adjustAsset_resetHeld (s : State) (a : Nat) (f : Asset → Asset) :
    (s.adjustAsset a f).resetHeld = s.resetHeld := rfl
@[simp] theorem State.adjustAsset_mode (s : State) (a : Nat) (f : Asset → Asset) :
    (s.adjustAsset a f).mode = s.mode := rfl
@[simp] theorem State.adjustAsset_time (s : State) (a : Nat) (f : Asset → Asset) :
    (s.adjustAsset a f).time = s.time := rfl
@[simp] theorem State.adjustAsset_owed (s : State) (a : Nat) (f : Asset → Asset) :
    (s.adjustAsset a f).owed = s.owed := rfl
@[simp] theorem State.adjustAsset_outstations (s : State) (a : Nat) (f : Asset → Asset) :
    (s.adjustAsset a f).outstations = s.outstations := rfl
@[simp] theorem State.adjustAsset_lines (s : State) (a : Nat) (f : Asset → Asset) :
    (s.adjustAsset a f).lines = s.lines := rfl
@[simp] theorem State.adjustAsset_points (s : State) (a : Nat) (f : Asset → Asset) :
    (s.adjustAsset a f).points = s.points := rfl
@[simp] theorem State.adjustAsset_drops (s : State) (a : Nat) (f : Asset → Asset) :
    (s.adjustAsset a f).drops = s.drops := rfl
@[simp] theorem State.adjustAsset_faultProfiles (s : State) (a : Nat) (f : Asset → Asset) :
    (s.adjustAsset a f).faultProfiles = s.faultProfiles := rfl
@[simp] theorem State.adjustAsset_loopProfiles (s : State) (a : Nat) (f : Asset → Asset) :
    (s.adjustAsset a f).loopProfiles = s.loopProfiles := rfl
@[simp] theorem State.adjustAsset_records (s : State) (a : Nat) (f : Asset → Asset) :
    (s.adjustAsset a f).records = s.records := rfl
@[simp] theorem State.adjustAsset_nextId (s : State) (a : Nat) (f : Asset → Asset) :
    (s.adjustAsset a f).nextId = s.nextId := rfl
@[simp] theorem State.adjustAsset_waiting (s : State) (a : Nat) (f : Asset → Asset) :
    (s.adjustAsset a f).waiting = s.waiting := rfl
@[simp] theorem State.adjustAsset_walkList (s : State) (a : Nat) (f : Asset → Asset) :
    (s.adjustAsset a f).walkList = s.walkList := rfl
@[simp] theorem State.adjustAsset_walk (s : State) (a : Nat) (f : Asset → Asset) :
    (s.adjustAsset a f).walk = s.walk := rfl
@[simp] theorem State.adjustAsset_rebuild (s : State) (a : Nat) (f : Asset → Asset) :
    (s.adjustAsset a f).rebuild = s.rebuild := rfl
@[simp] theorem State.adjustAsset_storm (s : State) (a : Nat) (f : Asset → Asset) :
    (s.adjustAsset a f).storm = s.storm := rfl
@[simp] theorem State.adjustAsset_beacons (s : State) (a : Nat) (f : Asset → Asset) :
    (s.adjustAsset a f).beacons = s.beacons := rfl
@[simp] theorem State.adjustAsset_trunk (s : State) (a : Nat) (f : Asset → Asset) :
    (s.adjustAsset a f).trunk = s.trunk := rfl
@[simp] theorem State.adjustAsset_freeCount (s : State) (a : Nat) (f : Asset → Asset) :
    (s.adjustAsset a f).freeCount = s.freeCount := rfl
@[simp] theorem State.adjustAsset_pending (s : State) (a : Nat) (f : Asset → Asset) :
    (s.adjustAsset a f).pending = s.pending := rfl

@[simp] theorem State.adjustOutstation_resetHeld (s : State) (o : Nat) (f : Outstation → Outstation) :
    (s.adjustOutstation o f).resetHeld = s.resetHeld := rfl
@[simp] theorem State.adjustOutstation_mode (s : State) (o : Nat) (f : Outstation → Outstation) :
    (s.adjustOutstation o f).mode = s.mode := rfl
@[simp] theorem State.adjustOutstation_time (s : State) (o : Nat) (f : Outstation → Outstation) :
    (s.adjustOutstation o f).time = s.time := rfl
@[simp] theorem State.adjustOutstation_owed (s : State) (o : Nat) (f : Outstation → Outstation) :
    (s.adjustOutstation o f).owed = s.owed := rfl
@[simp] theorem State.adjustOutstation_assets (s : State) (o : Nat) (f : Outstation → Outstation) :
    (s.adjustOutstation o f).assets = s.assets := rfl
@[simp] theorem State.adjustOutstation_lines (s : State) (o : Nat) (f : Outstation → Outstation) :
    (s.adjustOutstation o f).lines = s.lines := rfl
@[simp] theorem State.adjustOutstation_points (s : State) (o : Nat) (f : Outstation → Outstation) :
    (s.adjustOutstation o f).points = s.points := rfl
@[simp] theorem State.adjustOutstation_drops (s : State) (o : Nat) (f : Outstation → Outstation) :
    (s.adjustOutstation o f).drops = s.drops := rfl
@[simp] theorem State.adjustOutstation_faultProfiles (s : State) (o : Nat) (f : Outstation → Outstation) :
    (s.adjustOutstation o f).faultProfiles = s.faultProfiles := rfl
@[simp] theorem State.adjustOutstation_loopProfiles (s : State) (o : Nat) (f : Outstation → Outstation) :
    (s.adjustOutstation o f).loopProfiles = s.loopProfiles := rfl
@[simp] theorem State.adjustOutstation_records (s : State) (o : Nat) (f : Outstation → Outstation) :
    (s.adjustOutstation o f).records = s.records := rfl
@[simp] theorem State.adjustOutstation_nextId (s : State) (o : Nat) (f : Outstation → Outstation) :
    (s.adjustOutstation o f).nextId = s.nextId := rfl
@[simp] theorem State.adjustOutstation_waiting (s : State) (o : Nat) (f : Outstation → Outstation) :
    (s.adjustOutstation o f).waiting = s.waiting := rfl
@[simp] theorem State.adjustOutstation_walkList (s : State) (o : Nat) (f : Outstation → Outstation) :
    (s.adjustOutstation o f).walkList = s.walkList := rfl
@[simp] theorem State.adjustOutstation_walk (s : State) (o : Nat) (f : Outstation → Outstation) :
    (s.adjustOutstation o f).walk = s.walk := rfl
@[simp] theorem State.adjustOutstation_rebuild (s : State) (o : Nat) (f : Outstation → Outstation) :
    (s.adjustOutstation o f).rebuild = s.rebuild := rfl
@[simp] theorem State.adjustOutstation_storm (s : State) (o : Nat) (f : Outstation → Outstation) :
    (s.adjustOutstation o f).storm = s.storm := rfl
@[simp] theorem State.adjustOutstation_beacons (s : State) (o : Nat) (f : Outstation → Outstation) :
    (s.adjustOutstation o f).beacons = s.beacons := rfl
@[simp] theorem State.adjustOutstation_trunk (s : State) (o : Nat) (f : Outstation → Outstation) :
    (s.adjustOutstation o f).trunk = s.trunk := rfl
@[simp] theorem State.adjustOutstation_freeCount (s : State) (o : Nat) (f : Outstation → Outstation) :
    (s.adjustOutstation o f).freeCount = s.freeCount := rfl
@[simp] theorem State.adjustOutstation_pending (s : State) (o : Nat) (f : Outstation → Outstation) :
    (s.adjustOutstation o f).pending = s.pending := rfl

@[simp] theorem State.adjustLine_resetHeld (s : State) (k : Fin 4) (f : Line → Line) :
    (s.adjustLine k f).resetHeld = s.resetHeld := rfl
@[simp] theorem State.adjustLine_mode (s : State) (k : Fin 4) (f : Line → Line) :
    (s.adjustLine k f).mode = s.mode := rfl
@[simp] theorem State.adjustLine_time (s : State) (k : Fin 4) (f : Line → Line) :
    (s.adjustLine k f).time = s.time := rfl
@[simp] theorem State.adjustLine_owed (s : State) (k : Fin 4) (f : Line → Line) :
    (s.adjustLine k f).owed = s.owed := rfl
@[simp] theorem State.adjustLine_assets (s : State) (k : Fin 4) (f : Line → Line) :
    (s.adjustLine k f).assets = s.assets := rfl
@[simp] theorem State.adjustLine_outstations (s : State) (k : Fin 4) (f : Line → Line) :
    (s.adjustLine k f).outstations = s.outstations := rfl
@[simp] theorem State.adjustLine_points (s : State) (k : Fin 4) (f : Line → Line) :
    (s.adjustLine k f).points = s.points := rfl
@[simp] theorem State.adjustLine_drops (s : State) (k : Fin 4) (f : Line → Line) :
    (s.adjustLine k f).drops = s.drops := rfl
@[simp] theorem State.adjustLine_faultProfiles (s : State) (k : Fin 4) (f : Line → Line) :
    (s.adjustLine k f).faultProfiles = s.faultProfiles := rfl
@[simp] theorem State.adjustLine_loopProfiles (s : State) (k : Fin 4) (f : Line → Line) :
    (s.adjustLine k f).loopProfiles = s.loopProfiles := rfl
@[simp] theorem State.adjustLine_records (s : State) (k : Fin 4) (f : Line → Line) :
    (s.adjustLine k f).records = s.records := rfl
@[simp] theorem State.adjustLine_nextId (s : State) (k : Fin 4) (f : Line → Line) :
    (s.adjustLine k f).nextId = s.nextId := rfl
@[simp] theorem State.adjustLine_waiting (s : State) (k : Fin 4) (f : Line → Line) :
    (s.adjustLine k f).waiting = s.waiting := rfl
@[simp] theorem State.adjustLine_walkList (s : State) (k : Fin 4) (f : Line → Line) :
    (s.adjustLine k f).walkList = s.walkList := rfl
@[simp] theorem State.adjustLine_walk (s : State) (k : Fin 4) (f : Line → Line) :
    (s.adjustLine k f).walk = s.walk := rfl
@[simp] theorem State.adjustLine_rebuild (s : State) (k : Fin 4) (f : Line → Line) :
    (s.adjustLine k f).rebuild = s.rebuild := rfl
@[simp] theorem State.adjustLine_storm (s : State) (k : Fin 4) (f : Line → Line) :
    (s.adjustLine k f).storm = s.storm := rfl
@[simp] theorem State.adjustLine_beacons (s : State) (k : Fin 4) (f : Line → Line) :
    (s.adjustLine k f).beacons = s.beacons := rfl
@[simp] theorem State.adjustLine_trunk (s : State) (k : Fin 4) (f : Line → Line) :
    (s.adjustLine k f).trunk = s.trunk := rfl
@[simp] theorem State.adjustLine_freeCount (s : State) (k : Fin 4) (f : Line → Line) :
    (s.adjustLine k f).freeCount = s.freeCount := rfl
@[simp] theorem State.adjustLine_pending (s : State) (k : Fin 4) (f : Line → Line) :
    (s.adjustLine k f).pending = s.pending := rfl

@[simp] theorem State.adjustBeacon_resetHeld (s : State) (b : Fin 4) (f : Beacon → Beacon) :
    (s.adjustBeacon b f).resetHeld = s.resetHeld := rfl
@[simp] theorem State.adjustBeacon_mode (s : State) (b : Fin 4) (f : Beacon → Beacon) :
    (s.adjustBeacon b f).mode = s.mode := rfl
@[simp] theorem State.adjustBeacon_time (s : State) (b : Fin 4) (f : Beacon → Beacon) :
    (s.adjustBeacon b f).time = s.time := rfl
@[simp] theorem State.adjustBeacon_owed (s : State) (b : Fin 4) (f : Beacon → Beacon) :
    (s.adjustBeacon b f).owed = s.owed := rfl
@[simp] theorem State.adjustBeacon_assets (s : State) (b : Fin 4) (f : Beacon → Beacon) :
    (s.adjustBeacon b f).assets = s.assets := rfl
@[simp] theorem State.adjustBeacon_outstations (s : State) (b : Fin 4) (f : Beacon → Beacon) :
    (s.adjustBeacon b f).outstations = s.outstations := rfl
@[simp] theorem State.adjustBeacon_lines (s : State) (b : Fin 4) (f : Beacon → Beacon) :
    (s.adjustBeacon b f).lines = s.lines := rfl
@[simp] theorem State.adjustBeacon_points (s : State) (b : Fin 4) (f : Beacon → Beacon) :
    (s.adjustBeacon b f).points = s.points := rfl
@[simp] theorem State.adjustBeacon_drops (s : State) (b : Fin 4) (f : Beacon → Beacon) :
    (s.adjustBeacon b f).drops = s.drops := rfl
@[simp] theorem State.adjustBeacon_faultProfiles (s : State) (b : Fin 4) (f : Beacon → Beacon) :
    (s.adjustBeacon b f).faultProfiles = s.faultProfiles := rfl
@[simp] theorem State.adjustBeacon_loopProfiles (s : State) (b : Fin 4) (f : Beacon → Beacon) :
    (s.adjustBeacon b f).loopProfiles = s.loopProfiles := rfl
@[simp] theorem State.adjustBeacon_records (s : State) (b : Fin 4) (f : Beacon → Beacon) :
    (s.adjustBeacon b f).records = s.records := rfl
@[simp] theorem State.adjustBeacon_nextId (s : State) (b : Fin 4) (f : Beacon → Beacon) :
    (s.adjustBeacon b f).nextId = s.nextId := rfl
@[simp] theorem State.adjustBeacon_waiting (s : State) (b : Fin 4) (f : Beacon → Beacon) :
    (s.adjustBeacon b f).waiting = s.waiting := rfl
@[simp] theorem State.adjustBeacon_walkList (s : State) (b : Fin 4) (f : Beacon → Beacon) :
    (s.adjustBeacon b f).walkList = s.walkList := rfl
@[simp] theorem State.adjustBeacon_walk (s : State) (b : Fin 4) (f : Beacon → Beacon) :
    (s.adjustBeacon b f).walk = s.walk := rfl
@[simp] theorem State.adjustBeacon_rebuild (s : State) (b : Fin 4) (f : Beacon → Beacon) :
    (s.adjustBeacon b f).rebuild = s.rebuild := rfl
@[simp] theorem State.adjustBeacon_storm (s : State) (b : Fin 4) (f : Beacon → Beacon) :
    (s.adjustBeacon b f).storm = s.storm := rfl
@[simp] theorem State.adjustBeacon_trunk (s : State) (b : Fin 4) (f : Beacon → Beacon) :
    (s.adjustBeacon b f).trunk = s.trunk := rfl
@[simp] theorem State.adjustBeacon_freeCount (s : State) (b : Fin 4) (f : Beacon → Beacon) :
    (s.adjustBeacon b f).freeCount = s.freeCount := rfl
@[simp] theorem State.adjustBeacon_pending (s : State) (b : Fin 4) (f : Beacon → Beacon) :
    (s.adjustBeacon b f).pending = s.pending := rfl

@[simp] theorem State.notify_resetHeld (s : State) (n : Notice) : (s.notify n).resetHeld = s.resetHeld := rfl
@[simp] theorem State.notify_mode (s : State) (n : Notice) : (s.notify n).mode = s.mode := rfl
@[simp] theorem State.notify_time (s : State) (n : Notice) : (s.notify n).time = s.time := rfl
@[simp] theorem State.notify_owed (s : State) (n : Notice) : (s.notify n).owed = s.owed := rfl
@[simp] theorem State.notify_assets (s : State) (n : Notice) : (s.notify n).assets = s.assets := rfl
@[simp] theorem State.notify_outstations (s : State) (n : Notice) : (s.notify n).outstations = s.outstations := rfl
@[simp] theorem State.notify_lines (s : State) (n : Notice) : (s.notify n).lines = s.lines := rfl
@[simp] theorem State.notify_points (s : State) (n : Notice) : (s.notify n).points = s.points := rfl
@[simp] theorem State.notify_drops (s : State) (n : Notice) : (s.notify n).drops = s.drops := rfl
@[simp] theorem State.notify_faultProfiles (s : State) (n : Notice) :
    (s.notify n).faultProfiles = s.faultProfiles := rfl
@[simp] theorem State.notify_loopProfiles (s : State) (n : Notice) : (s.notify n).loopProfiles = s.loopProfiles := rfl
@[simp] theorem State.notify_records (s : State) (n : Notice) : (s.notify n).records = s.records := rfl
@[simp] theorem State.notify_nextId (s : State) (n : Notice) : (s.notify n).nextId = s.nextId := rfl
@[simp] theorem State.notify_waiting (s : State) (n : Notice) : (s.notify n).waiting = s.waiting := rfl
@[simp] theorem State.notify_walkList (s : State) (n : Notice) : (s.notify n).walkList = s.walkList := rfl
@[simp] theorem State.notify_walk (s : State) (n : Notice) : (s.notify n).walk = s.walk := rfl
@[simp] theorem State.notify_rebuild (s : State) (n : Notice) : (s.notify n).rebuild = s.rebuild := rfl
@[simp] theorem State.notify_storm (s : State) (n : Notice) : (s.notify n).storm = s.storm := rfl
@[simp] theorem State.notify_beacons (s : State) (n : Notice) : (s.notify n).beacons = s.beacons := rfl
@[simp] theorem State.notify_freeCount (s : State) (n : Notice) : (s.notify n).freeCount = s.freeCount := rfl
@[simp] theorem State.notify_pending (s : State) (n : Notice) : (s.notify n).pending = s.pending := rfl

@[simp] theorem State.reply_resetHeld (s : State) (dest : ReplyTo) (code : ReplyCode) (data : List Byte) :
    (s.reply dest code data).resetHeld = s.resetHeld := rfl
@[simp] theorem State.reply_mode (s : State) (dest : ReplyTo) (code : ReplyCode) (data : List Byte) :
    (s.reply dest code data).mode = s.mode := rfl
@[simp] theorem State.reply_time (s : State) (dest : ReplyTo) (code : ReplyCode) (data : List Byte) :
    (s.reply dest code data).time = s.time := rfl
@[simp] theorem State.reply_owed (s : State) (dest : ReplyTo) (code : ReplyCode) (data : List Byte) :
    (s.reply dest code data).owed = s.owed := rfl
@[simp] theorem State.reply_assets (s : State) (dest : ReplyTo) (code : ReplyCode) (data : List Byte) :
    (s.reply dest code data).assets = s.assets := rfl
@[simp] theorem State.reply_outstations (s : State) (dest : ReplyTo) (code : ReplyCode) (data : List Byte) :
    (s.reply dest code data).outstations = s.outstations := rfl
@[simp] theorem State.reply_lines (s : State) (dest : ReplyTo) (code : ReplyCode) (data : List Byte) :
    (s.reply dest code data).lines = s.lines := rfl
@[simp] theorem State.reply_points (s : State) (dest : ReplyTo) (code : ReplyCode) (data : List Byte) :
    (s.reply dest code data).points = s.points := rfl
@[simp] theorem State.reply_drops (s : State) (dest : ReplyTo) (code : ReplyCode) (data : List Byte) :
    (s.reply dest code data).drops = s.drops := rfl
@[simp] theorem State.reply_faultProfiles (s : State) (dest : ReplyTo) (code : ReplyCode) (data : List Byte) :
    (s.reply dest code data).faultProfiles = s.faultProfiles := rfl
@[simp] theorem State.reply_loopProfiles (s : State) (dest : ReplyTo) (code : ReplyCode) (data : List Byte) :
    (s.reply dest code data).loopProfiles = s.loopProfiles := rfl
@[simp] theorem State.reply_records (s : State) (dest : ReplyTo) (code : ReplyCode) (data : List Byte) :
    (s.reply dest code data).records = s.records := rfl
@[simp] theorem State.reply_nextId (s : State) (dest : ReplyTo) (code : ReplyCode) (data : List Byte) :
    (s.reply dest code data).nextId = s.nextId := rfl
@[simp] theorem State.reply_waiting (s : State) (dest : ReplyTo) (code : ReplyCode) (data : List Byte) :
    (s.reply dest code data).waiting = s.waiting := rfl
@[simp] theorem State.reply_walkList (s : State) (dest : ReplyTo) (code : ReplyCode) (data : List Byte) :
    (s.reply dest code data).walkList = s.walkList := rfl
@[simp] theorem State.reply_walk (s : State) (dest : ReplyTo) (code : ReplyCode) (data : List Byte) :
    (s.reply dest code data).walk = s.walk := rfl
@[simp] theorem State.reply_rebuild (s : State) (dest : ReplyTo) (code : ReplyCode) (data : List Byte) :
    (s.reply dest code data).rebuild = s.rebuild := rfl
@[simp] theorem State.reply_storm (s : State) (dest : ReplyTo) (code : ReplyCode) (data : List Byte) :
    (s.reply dest code data).storm = s.storm := rfl
@[simp] theorem State.reply_beacons (s : State) (dest : ReplyTo) (code : ReplyCode) (data : List Byte) :
    (s.reply dest code data).beacons = s.beacons := rfl
@[simp] theorem State.reply_freeCount (s : State) (dest : ReplyTo) (code : ReplyCode) (data : List Byte) :
    (s.reply dest code data).freeCount = s.freeCount := rfl
@[simp] theorem State.reply_pending (s : State) (dest : ReplyTo) (code : ReplyCode) (data : List Byte) :
    (s.reply dest code data).pending = s.pending := rfl

@[simp] theorem State.settleBeacons_resetHeld (s : State) : (s.settleBeacons).resetHeld = s.resetHeld := rfl
@[simp] theorem State.settleBeacons_mode (s : State) : (s.settleBeacons).mode = s.mode := rfl
@[simp] theorem State.settleBeacons_time (s : State) : (s.settleBeacons).time = s.time := rfl
@[simp] theorem State.settleBeacons_owed (s : State) : (s.settleBeacons).owed = s.owed := rfl
@[simp] theorem State.settleBeacons_assets (s : State) : (s.settleBeacons).assets = s.assets := rfl
@[simp] theorem State.settleBeacons_outstations (s : State) : (s.settleBeacons).outstations = s.outstations := rfl
@[simp] theorem State.settleBeacons_lines (s : State) : (s.settleBeacons).lines = s.lines := rfl
@[simp] theorem State.settleBeacons_points (s : State) : (s.settleBeacons).points = s.points := rfl
@[simp] theorem State.settleBeacons_drops (s : State) : (s.settleBeacons).drops = s.drops := rfl
@[simp] theorem State.settleBeacons_faultProfiles (s : State) :
    (s.settleBeacons).faultProfiles = s.faultProfiles := rfl
@[simp] theorem State.settleBeacons_loopProfiles (s : State) : (s.settleBeacons).loopProfiles = s.loopProfiles := rfl
@[simp] theorem State.settleBeacons_records (s : State) : (s.settleBeacons).records = s.records := rfl
@[simp] theorem State.settleBeacons_nextId (s : State) : (s.settleBeacons).nextId = s.nextId := rfl
@[simp] theorem State.settleBeacons_waiting (s : State) : (s.settleBeacons).waiting = s.waiting := rfl
@[simp] theorem State.settleBeacons_walkList (s : State) : (s.settleBeacons).walkList = s.walkList := rfl
@[simp] theorem State.settleBeacons_walk (s : State) : (s.settleBeacons).walk = s.walk := rfl
@[simp] theorem State.settleBeacons_rebuild (s : State) : (s.settleBeacons).rebuild = s.rebuild := rfl
@[simp] theorem State.settleBeacons_storm (s : State) : (s.settleBeacons).storm = s.storm := rfl
@[simp] theorem State.settleBeacons_trunk (s : State) : (s.settleBeacons).trunk = s.trunk := rfl
@[simp] theorem State.settleBeacons_freeCount (s : State) : (s.settleBeacons).freeCount = s.freeCount := rfl
@[simp] theorem State.settleBeacons_pending (s : State) : (s.settleBeacons).pending = s.pending := rfl

end Sys2Proof.Machine
end

