-- ==== Sys2Proof/Laws/Queue.lean ====
section
/-! SUPPORT. What an arrival at the transmit queue can do (R188, R189), and what notices and replies leave alone. -/

namespace Sys2Proof.Machine

/-! ## An arrival -/

@[simp] theorem Trunk.place_node (t : Trunk) (f : TrunkFrame) : (t.place f).node = t.node := by
  simp only [Trunk.place]; split <;> [rfl; split <;> rfl]

@[simp] theorem Trunk.place_alternate (t : Trunk) (f : TrunkFrame) : (t.place f).alternate = t.alternate := by
  simp only [Trunk.place]; split <;> [rfl; split <;> rfl]

@[simp] theorem Trunk.place_sending (t : Trunk) (f : TrunkFrame) : (t.place f).sending = t.sending := by
  simp only [Trunk.place]; split <;> [rfl; split <;> rfl]

@[simp] theorem Trunk.place_checkFails (t : Trunk) (f : TrunkFrame) : (t.place f).checkFails = t.checkFails := by
  simp only [Trunk.place]; split <;> [rfl; split <;> rfl]

/-- With a slot free, the arrival joins at the tail and nothing else changes. -/
theorem Trunk.place_of_room {t : Trunk} (h : t.occupancy < Config.transmitCapacity) (f : TrunkFrame) :
    t.place f = { t with waiting := t.waiting ++ [f] } := if_pos h

/-- At a full queue, an arrival that outranks the lowest waiting class displaces its newest frame. -/
theorem Trunk.place_of_higher {t : Trunk} (h : ¬t.occupancy < Config.transmitCapacity) {f : TrunkFrame}
    (hr : lowestRank t.waiting < f.body.rank) :
    t.place f = { t with waiting := dropNewest (lowestRank t.waiting) t.waiting ++ [f], lost := true } := by
  rw [Trunk.place, if_neg h, if_pos hr]

/-- At a full queue, any other arrival is discarded. -/
theorem Trunk.place_of_not_higher {t : Trunk} (h : ¬t.occupancy < Config.transmitCapacity) {f : TrunkFrame}
    (hr : ¬lowestRank t.waiting < f.body.rank) : t.place f = { t with lost := true } := by
  rw [Trunk.place, if_neg h, if_neg hr]

theorem foldl_min_le (l : List Nat) (m : Nat) : l.foldl min m ≤ m := by
  induction l generalizing m with
  | nil => exact le_refl _
  | cons a rest ih => exact le_trans (ih _) (min_le_left _ _)

theorem foldl_min_mem (l : List Nat) (m : Nat) (h : l.foldl min m ≠ m) : l.foldl min m ∈ l := by
  induction l generalizing m with
  | nil => exact absurd rfl h
  | cons a rest ih =>
    simp only [List.foldl_cons] at h ⊢
    by_cases h' : rest.foldl min (min m a) = min m a
    · rw [h'] at h ⊢
      rcases min_choice m a with hm | hm
      · exact absurd hm h
      · rw [hm]; exact List.mem_cons_self
    · exact List.mem_cons_of_mem _ (ih _ h')

theorem FrameBody.rank_le (b : FrameBody) : b.rank ≤ 2 := by
  unfold FrameBody.rank; split <;> omega

/-- A lowest class below REPLY is the class of some waiting frame. -/
theorem exists_lowestRank {waiting : List TrunkFrame} (h : lowestRank waiting < 2) :
    ∃ f ∈ waiting, f.body.rank = lowestRank waiting := by
  have := foldl_min_mem (waiting.map fun f => f.body.rank) 2 (by unfold lowestRank at h; omega)
  obtain ⟨f, hf, he⟩ := List.mem_map.1 this
  exact ⟨f, hf, he⟩

/-- Discarding the newest frame of a class that waits makes the queue one frame shorter. -/
theorem length_dropNewest {waiting : List TrunkFrame} {r : Nat} (h : ∃ f ∈ waiting, f.body.rank = r) :
    (dropNewest r waiting).length + 1 = waiting.length := by
  obtain ⟨f, hf, hr⟩ := h
  have := List.length_eraseP_of_mem (p := fun f : TrunkFrame => f.body.rank == r) (List.mem_reverse.2 hf) (by simpa using hr)
  have hpos : 0 < waiting.length := List.length_pos_of_mem hf
  simp only [dropNewest, List.length_reverse, List.length_reverse] at this ⊢
  omega

/-- No arrival takes the queue above its capacity (R188). -/
theorem Trunk.occupancy_place_le {t : Trunk} (h : t.occupancy ≤ Config.transmitCapacity) (f : TrunkFrame) :
    (t.place f).occupancy ≤ Config.transmitCapacity := by
  by_cases h1 : t.occupancy < Config.transmitCapacity
  · rw [Trunk.place_of_room h1]
    simp only [Trunk.occupancy, List.length_append, List.length_cons, List.length_nil] at h1 ⊢
    omega
  · by_cases h2 : lowestRank t.waiting < f.body.rank
    · rw [Trunk.place_of_higher h1 h2]
      have hl := length_dropNewest (exists_lowestRank (lt_of_lt_of_le h2 f.body.rank_le))
      simp only [Trunk.occupancy, List.length_append, List.length_cons, List.length_nil] at h ⊢
      omega
    · rw [Trunk.place_of_not_higher h1 h2]
      exact h

/-! ## Notices and replies -/

@[simp] theorem State.notify_trunk (s : State) (n : Notice) :
    (s.notify n).trunk = s.trunk.place ⟨s.trunk.node, .notice n⟩ := rfl

@[simp] theorem State.reply_trunk (s : State) (dest : ReplyTo) (code : ReplyCode) (data : List Byte) :
    (s.reply dest code data).trunk = s.trunk.place ⟨dest.addr, .reply dest.tag code data⟩ := rfl

@[simp] theorem State.replyIfOwed_some (s : State) (dest : ReplyTo) (code : ReplyCode) :
    s.replyIfOwed (some dest) code = s.reply dest code [] := rfl

@[simp] theorem State.replyIfOwed_none (s : State) (code : ReplyCode) : s.replyIfOwed none code = s := rfl

@[simp] theorem State.answer_error (s : State) (dest : ReplyTo) (code : ReplyCode) :
    s.answer dest (.error code) = s.reply dest code [] := rfl

@[simp] theorem State.answer_ok (s t : State) (dest : ReplyTo) : s.answer dest (.ok t) = t.reply dest .done [] := rfl

@[simp] theorem State.report_error (s : State) (dest : ReplyTo) (code : ReplyCode) :
    s.report dest (.error code) = s.reply dest code [] := rfl

@[simp] theorem State.report_ok (s : State) (dest : ReplyTo) (data : List Byte) :
    s.report dest (.ok data) = s.reply dest .done data := rfl

end Sys2Proof.Machine
end

