-- ==== Sys2Proof/Laws/Commands.lean ====
section
/-! SUPPORT. The shapes that commands share, each case once: held, foreign, busy, refused, taken; and the step. -/

namespace Sys2Proof.Machine

/-! ## The shapes -/

@[simp] theorem unlessHeld_held {s : State} (h : s.resetHeld = true) (f : State → State) : unlessHeld s f = .next s := by
  simp [unlessHeld, h]

@[simp] theorem unlessHeld_free {s : State} (h : s.resetHeld = false) (f : State → State) :
    unlessHeld s f = .next (f s) := by simp [unlessHeld, h]

/-- A directive on one of the part's own addresses. -/
theorem directive_own {s : State} (h : s.resetHeld = false) {addr : Byte} (ha : s.isOwn addr = true) (tag : Byte)
    (f : ReplyTo → State → State) : directive addr tag s f = .next (f ⟨addr, tag⟩ s) := by
  simp [directive, h, ha]

/-- A directive on any other address is ignored. -/
theorem directive_foreign {s : State} {addr : Byte} (ha : s.isOwn addr = false) (tag : Byte)
    (f : ReplyTo → State → State) : directive addr tag s f = .next s := by
  simp [directive, unlessHeld, ha]

/-- TIME, MODE or RESTART on one of the part's own addresses. -/
theorem groupDirective_own {s : State} (h : s.resetHeld = false) {addr : Byte} (ha : s.isOwn addr = true) (tag : Byte)
    (f : Option ReplyTo → State → State) : groupDirective addr tag s f = .next (f (some ⟨addr, tag⟩) s) := by
  simp [groupDirective, h, ha]

/-- TIME, MODE or RESTART on the group address: no reply is owed. -/
theorem groupDirective_group {s : State} (h : s.resetHeld = false) (ha : s.isOwn groupAddress = false) (tag : Byte)
    (f : Option ReplyTo → State → State) : groupDirective groupAddress tag s f = .next (f none s) := by
  simp [groupDirective, h, ha]

/-- TIME, MODE or RESTART on any other address is ignored. -/
theorem groupDirective_foreign {s : State} {addr : Byte} (ha : s.isOwn addr = false) (hg : addr ≠ groupAddress)
    (tag : Byte) (f : Option ReplyTo → State → State) : groupDirective addr tag s f = .next s := by
  simp [groupDirective, unlessHeld, ha, hg]

/-- A LOAD or ERASE that names its table, outside ENTERING. -/
theorem tableEdit_coded {s : State} (h : s.resetHeld = false) {addr : Byte} (ha : s.isOwn addr = true)
    (hm : s.mode ≠ .entering) (tag : Byte) (fs : List Byte) (edit : List Byte → State → Except ReplyCode State) :
    tableEdit addr (.coded tag fs) s edit = .next (s.answer ⟨addr, tag⟩ (edit fs s)) := by
  rw [tableEdit, directive_own h ha]
  simp [hm, CodedRequest.fields?, CodedRequest.tag]

/-- A LOAD or ERASE while the part is ENTERING. -/
theorem tableEdit_busy {s : State} (h : s.resetHeld = false) {addr : Byte} (ha : s.isOwn addr = true)
    (hm : s.mode = .entering) (req : CodedRequest) (edit : List Byte → State → Except ReplyCode State) :
    tableEdit addr req s edit = .next (s.reply ⟨addr, req.tag⟩ .busy []) := by
  rw [tableEdit, directive_own h ha]
  simp [hm]

/-- A LOAD or ERASE whose table id is missing or unknown. -/
theorem tableEdit_unnamed {s : State} (h : s.resetHeld = false) {addr : Byte} (ha : s.isOwn addr = true)
    (hm : s.mode ≠ .entering) {req : CodedRequest} (hr : req.fields? = none)
    (edit : List Byte → State → Except ReplyCode State) :
    tableEdit addr req s edit = .next (s.reply ⟨addr, req.tag⟩ .badEntry []) := by
  rw [tableEdit, directive_own h ha]
  simp [hm, hr]

/-- A READ that names its table. -/
theorem tableRead_coded {s : State} (h : s.resetHeld = false) {addr : Byte} (ha : s.isOwn addr = true) (tag : Byte)
    (fs : List Byte) (read : List Byte → State → Except ReplyCode (List Byte)) :
    tableRead addr (.coded tag fs) s read = .next (s.report ⟨addr, tag⟩ (read fs s)) := by
  rw [tableRead, directive_own h ha]
  simp [CodedRequest.fields?, CodedRequest.tag]

/-- A READ whose table id is missing or unknown. -/
theorem tableRead_unnamed {s : State} (h : s.resetHeld = false) {addr : Byte} (ha : s.isOwn addr = true)
    {req : CodedRequest} (hr : req.fields? = none) (read : List Byte → State → Except ReplyCode (List Byte)) :
    tableRead addr req s read = .next (s.reply ⟨addr, req.tag⟩ .badEntry []) := by
  rw [tableRead, directive_own h ha]
  simp [hr]

/-! ## Work owed to a block -/

/-- No work owed to the block: no event. -/
theorem State.doOwed_of_not_mem {s : State} {w : TickWork} (h : w ∉ s.owed) : s.doOwed w = s := by
  simp [State.doOwed, h]

/-- The block does the work it owes, once. -/
theorem State.doOwed_of_mem {s : State} {w : TickWork} (h : w ∈ s.owed) :
    s.doOwed w = (s.setOwed (s.owed.erase w)).tickWork w := by
  simp [State.doOwed, h]

/-- A free order holds the same members, as often. -/
theorem freeOrder_perm {α : Type} (draw : Nat) (l : List α) : (freeOrder draw l).Perm l := by
  induction l with
  | nil => exact .nil
  | cons x l ih =>
    cases l with
    | nil => exact .refl _
    | cons y rest =>
      refine (List.perm_insertIdx x _ ?_).trans (ih.cons x)
      simpa [ih.length_eq] using Nat.lt_succ_iff.mp (Nat.mod_lt _ (Nat.succ_pos _))

/-- With nothing owed there is nothing to finish. -/
theorem State.finishOwed_of_nil {s : State} (h : s.owed = []) : s.finishOwed = s := by
  simp [State.finishOwed, h]

/-! ## The step -/

/-- A step takes the front of the queue. -/
theorem step_cons {s : State} {c : Instr} {rest : List Instr} (h : s.pending = c :: rest) :
    step s = exec c (s.setPending rest) := by simp [step, h]

/-- With no command waiting the part idles. -/
theorem step_nil {s : State} (h : s.pending = []) : step s = .next s := by simp [step, h]

end Sys2Proof.Machine
end

