-- ==== Sys2Proof/Laws/Tables.lean ====
section
/-! SUPPORT. The laws of the keyed tables: what is read after each operation, and that each keeps the canonical form. -/

namespace Sys2Proof.Machine

variable {α : Type}

/-! ## Reading -/

@[simp] theorem Table.get?_nil (k : Nat) : Table.get? ([] : Table α) k = none := rfl

theorem Table.get?_cons (e : Nat × α) (t : Table α) (k : Nat) :
    Table.get? (e :: t) k = if e.1 = k then some e.2 else Table.get? t k := rfl

/-- What a put leaves under its own key. -/
@[simp] theorem Table.get?_put_self (t : Table α) (k : Nat) (x : α) : (Table.put t k x).get? k = some x := by
  induction t with
  | nil => simp [Table.put, Table.get?]
  | cons e rest ih =>
    simp only [Table.put]
    split
    · simp [Table.get?]
    · split
      · simp [Table.get?]
      · rename_i h; simp [Table.get?, Ne.symm h, ih]

/-- A put leaves every other key as it was. -/
theorem Table.get?_put_of_ne (t : Table α) {k j : Nat} (x : α) (h : j ≠ k) : (Table.put t k x).get? j = t.get? j := by
  induction t with
  | nil => simp [Table.put, Table.get?, Ne.symm h]
  | cons e rest ih =>
    simp only [Table.put]
    split
    · simp [Table.get?, Ne.symm h]
    · split
      · rename_i h'; simp [Table.get?, ← h', Ne.symm h]
      · simp [Table.get?, ih]

/-- A deleted key has no entry. -/
@[simp] theorem Table.get?_del_self (t : Table α) (k : Nat) : (Table.del t k).get? k = none := by
  induction t with
  | nil => rfl
  | cons e rest ih =>
    simp only [Table.del, List.filter_cons] at ih ⊢
    by_cases h : e.1 = k
    · simpa [h] using ih
    · simpa [h, Table.get?] using ih

/-- A delete leaves every other key as it was. -/
theorem Table.get?_del_of_ne (t : Table α) {k j : Nat} (h : j ≠ k) : (Table.del t k).get? j = t.get? j := by
  induction t with
  | nil => rfl
  | cons e rest ih =>
    simp only [Table.del, List.filter_cons] at ih ⊢
    by_cases h' : e.1 = k
    · have : e.1 ≠ j := fun h'' => h (h''.symm.trans h')
      simpa [h', Table.get?, this, Ne.symm h] using ih
    · simp only [decide_not, h', decide_false, Bool.not_false, if_true, Table.get?]
      simp only [decide_not] at ih
      rw [ih]

/-- What an adjust leaves under each key. -/
theorem Table.get?_adjust (t : Table α) (k j : Nat) (f : α → α) :
    (Table.adjust t k f).get? j = if j = k then (t.get? j).map f else t.get? j := by
  induction t with
  | nil => simp [Table.adjust, Table.get?]
  | cons e rest ih =>
    simp only [Table.adjust, List.map_cons] at ih ⊢
    by_cases h : e.1 = k
    · by_cases hj : j = k
      · simp [Table.get?, h, hj]
      · have : e.1 ≠ j := fun h'' => hj (h''.symm.trans h)
        simpa [Table.get?, h, hj, Ne.symm hj] using ih
    · by_cases hj : j = k
      · have : e.1 ≠ j := fun h'' => h (h''.trans hj)
        simpa [Table.get?, h, hj] using ih
      · simp only [Table.get?, h, hj, if_false] at ih ⊢
        rw [ih]

/-- What a map over all entries leaves under each key. -/
@[simp] theorem Table.get?_mapAll (t : Table α) (f : Nat → α → α) (j : Nat) :
    (Table.mapAll t f).get? j = (t.get? j).map (f j) := by
  induction t with
  | nil => rfl
  | cons e rest ih =>
    simp only [Table.mapAll, List.map_cons, Table.get?] at ih ⊢
    split
    · rename_i h; simp [h]
    · exact ih

/-- An entry found is an entry of the list. -/
theorem Table.mem_of_get? {t : Table α} {k : Nat} {x : α} (h : t.get? k = some x) : (k, x) ∈ t := by
  induction t with
  | nil => simp [Table.get?] at h
  | cons e rest ih =>
    simp only [Table.get?] at h
    split at h
    · rename_i h'; cases h; subst h'; exact List.mem_cons_self
    · exact List.mem_cons_of_mem _ (ih h)

/-! ## The canonical form -/

/-- The canonical form as a proposition. -/
theorem Table.wf_iff (t : Table α) : t.wf = true ↔ (t.map Prod.fst).Pairwise (· < ·) := by simp [Table.wf]

@[simp] theorem Table.wf_nil : Table.wf ([] : Table α) = true := rfl

/-- The keys after a put are those before it and its own. -/
theorem Table.mem_keys_put (t : Table α) (k j : Nat) (x : α) (h : j ∈ (Table.put t k x).map Prod.fst) :
    j = k ∨ j ∈ t.map Prod.fst := by
  induction t with
  | nil => simpa [Table.put] using h
  | cons e rest ih =>
    simp only [Table.put] at h
    split at h
    · simpa using h
    · split at h
      · rename_i h'; simp only [List.map_cons, List.mem_cons] at h ⊢; tauto
      · simp only [List.map_cons, List.mem_cons] at h ⊢
        rcases h with h | h
        · exact .inr (.inl h)
        · rcases ih h with h | h
          · exact .inl h
          · exact .inr (.inr h)

/-- A put keeps the canonical form. -/
theorem Table.wf_put {t : Table α} (h : t.wf = true) (k : Nat) (x : α) : (Table.put t k x).wf = true := by
  rw [Table.wf_iff] at h ⊢
  induction t with
  | nil => simp [Table.put]
  | cons e rest ih =>
    simp only [List.map_cons, List.pairwise_cons] at h
    simp only [Table.put]
    split
    · rename_i h'
      simp only [List.map_cons, List.pairwise_cons, List.mem_cons]
      refine ⟨fun a ha => ?_, h⟩
      rcases ha with rfl | ha
      · exact h'
      · exact lt_trans h' (h.1 a ha)
    · split
      · rename_i h'
        simp only [List.map_cons, List.pairwise_cons]
        exact ⟨fun a ha => h' ▸ h.1 a ha, h.2⟩
      · rename_i h1 h2
        simp only [List.map_cons, List.pairwise_cons]
        refine ⟨fun a ha => ?_, ih h.2⟩
        rcases Table.mem_keys_put _ _ _ _ ha with rfl | ha
        · omega
        · exact h.1 a ha

/-- A filtered table keeps the canonical form. -/
theorem Table.wf_filter {t : Table α} (h : t.wf = true) (p : Nat × α → Bool) :
    Table.wf (List.filter p t : Table α) = true := by
  rw [Table.wf_iff] at h ⊢
  exact h.sublist ((List.filter_sublist (p := p) (l := t)).map Prod.fst)

/-- A delete keeps the canonical form. -/
theorem Table.wf_del {t : Table α} (h : t.wf = true) (k : Nat) : (Table.del t k).wf = true := Table.wf_filter h _

/-- An adjust changes no key. -/
theorem Table.keys_adjust (t : Table α) (k : Nat) (f : α → α) :
    (Table.adjust t k f).map Prod.fst = t.map Prod.fst := by
  simp only [Table.adjust, List.map_map]
  refine List.map_congr_left fun e _ => ?_
  simp only [Function.comp]
  split <;> rfl

/-- A map over all entries changes no key. -/
theorem Table.keys_mapAll (t : Table α) (f : Nat → α → α) : (Table.mapAll t f).map Prod.fst = t.map Prod.fst := by
  simp only [Table.mapAll, List.map_map]
  exact List.map_congr_left fun e _ => rfl

/-- An adjust keeps the canonical form. -/
theorem Table.wf_adjust {t : Table α} (h : t.wf = true) (k : Nat) (f : α → α) : (Table.adjust t k f).wf = true := by
  rw [Table.wf_iff, Table.keys_adjust]
  exact (Table.wf_iff t).1 h

/-- A map over all entries keeps the canonical form. -/
theorem Table.wf_mapAll {t : Table α} (h : t.wf = true) (f : Nat → α → α) : (Table.mapAll t f).wf = true := by
  rw [Table.wf_iff, Table.keys_mapAll]
  exact (Table.wf_iff t).1 h

/-- In a table in canonical form an entry of the list is what its key finds. -/
theorem Table.get?_of_mem {t : Table α} (h : t.wf = true) {k : Nat} {x : α} (hm : (k, x) ∈ t) : t.get? k = some x := by
  rw [Table.wf_iff] at h
  induction t with
  | nil => cases hm
  | cons e rest ih =>
    simp only [List.map_cons, List.pairwise_cons] at h
    simp only [Table.get?]
    rcases List.mem_cons.1 hm with rfl | hm
    · simp
    · have : e.1 < k := h.1 k (List.mem_map.2 ⟨_, hm, rfl⟩)
      rw [if_neg (by omega)]
      exact ih h.2 hm

/-! ## Lengths -/

@[simp] theorem Table.length_adjust (t : Table α) (k : Nat) (f : α → α) : (Table.adjust t k f).length = t.length := by
  simp [Table.adjust]

@[simp] theorem Table.length_mapAll (t : Table α) (f : Nat → α → α) : (Table.mapAll t f).length = t.length := by
  simp [Table.mapAll]

/-- A put adds at most one entry. -/
theorem Table.length_put_le (t : Table α) (k : Nat) (x : α) : (Table.put t k x).length ≤ t.length + 1 := by
  induction t with
  | nil => simp [Table.put]
  | cons e rest ih =>
    simp only [Table.put]
    split
    · simp
    · split
      · simp
      · simpa using ih

/-- In a table in canonical form a put under a key that has an entry adds none. -/
theorem Table.length_put_of_has {t : Table α} (h : t.wf = true) {k : Nat} (hk : t.has k = true) (x : α) :
    (Table.put t k x).length = t.length := by
  rw [Table.wf_iff] at h
  induction t with
  | nil => simp [Table.has] at hk
  | cons e rest ih =>
    simp only [List.map_cons, List.pairwise_cons] at h
    simp only [Table.put]
    split
    · rename_i h'
      simp only [Table.has, Table.get?] at hk
      rw [if_neg (by omega)] at hk
      obtain ⟨y, hy⟩ := Option.isSome_iff_exists.1 hk
      have := h.1 k (List.mem_map.2 ⟨_, Table.mem_of_get? hy, rfl⟩)
      omega
    · split
      · simp
      · rename_i h1 h2
        have hk' : Table.has rest k = true := by
          simpa [Table.has, Table.get?, Ne.symm h2] using hk
        simpa using ih h.2 hk'

/-- A delete removes no entry or some. -/
theorem Table.length_del_le (t : Table α) (k : Nat) : (Table.del t k).length ≤ t.length := List.length_filter_le _ _

/-- A delete of a key that has an entry makes the table shorter. -/
theorem Table.length_del_lt {t : Table α} {k : Nat} (h : t.has k = true) : (Table.del t k).length < t.length := by
  obtain ⟨y, hy⟩ := Option.isSome_iff_exists.1 h
  have hm := Table.mem_of_get? hy
  simp only [Table.del]
  refine lt_of_le_of_ne (List.length_filter_le _ _) fun he => ?_
  have := List.length_filter_eq_length_iff.1 he (k, y) hm
  simp at this

end Sys2Proof.Machine
end

