-- ==== Sys2Proof/Laws/Frames.lean ====
section
/-! SUPPORT. What the fault table, its requests and the sample leave alone: one relation between the state before and
the state after, kept by each operation of Machine/FaultTable.lean and by any run of them. -/

namespace Sys2Proof.Machine

/-- What every request to the fault table, and every sample, leaves as it was. What may change: the records, next-ID, the
waiting list, the walk list, opens-this-minute, the health and fault fields of assets, and the transmit queue, to which arrivals
of FAULT class come one after another. -/
structure FaultFrame (s t : State) : Prop where
  resetHeld : t.resetHeld = s.resetHeld
  mode : t.mode = s.mode
  time : t.time = s.time
  owed : t.owed = s.owed
  outstations : t.outstations = s.outstations
  lines : t.lines = s.lines
  points : t.points = s.points
  drops : t.drops = s.drops
  faultProfiles : t.faultProfiles = s.faultProfiles
  loopProfiles : t.loopProfiles = s.loopProfiles
  walk : t.walk = s.walk
  rebuild : t.rebuild = s.rebuild
  storm : t.storm = { s.storm with opens := t.storm.opens }
  beacons : t.beacons = s.beacons
  trunk : ∃ fs : List TrunkFrame, (∀ f ∈ fs, f.body.rank = 1) ∧ t.trunk = fs.foldl Trunk.place s.trunk
  freeCount : t.freeCount = s.freeCount
  pending : t.pending = s.pending
  configs : ∀ a, (t.asset? a).map Asset.config = (s.asset? a).map Asset.config
  windows : ∀ a, (t.asset? a).map Asset.window = (s.asset? a).map Asset.window

/-- A state that agrees with `s` on every field the frame names, and has placed no frame. -/
theorem FaultFrame.of_eq {s t : State}
    (h : t = { s with records := t.records, nextId := t.nextId, waiting := t.waiting, walkList := t.walkList,
                      storm := { s.storm with opens := t.storm.opens } }) : FaultFrame s t := by
  rw [h]
  constructor
  case trunk => exact ⟨[], by simp, rfl⟩
  all_goals first | rfl | exact fun _ => rfl

theorem FaultFrame.refl (s : State) : FaultFrame s s := .of_eq rfl

theorem FaultFrame.trans {s t u : State} (h : FaultFrame s t) (k : FaultFrame t u) : FaultFrame s u := by
  constructor
  case storm => rw [k.storm, h.storm]
  case trunk =>
    obtain ⟨fs, h1, h2⟩ := h.trunk
    obtain ⟨gs, k1, k2⟩ := k.trunk
    refine ⟨fs ++ gs, fun f hf => ?_, by rw [List.foldl_append, ← h2, k2]⟩
    rcases List.mem_append.1 hf with hf | hf
    · exact h1 f hf
    · exact k1 f hf
  case configs => exact fun a => (k.configs a).trans (h.configs a)
  case windows => exact fun a => (k.windows a).trans (h.windows a)
  all_goals simp only [k.resetHeld, h.resetHeld, k.mode, h.mode, k.time, h.time, k.owed, h.owed, k.outstations,
    h.outstations, k.lines, h.lines, k.points, h.points, k.drops, h.drops, k.faultProfiles, h.faultProfiles,
    k.loopProfiles, h.loopProfiles, k.walk, h.walk, k.rebuild, h.rebuild, k.beacons, h.beacons, k.freeCount,
    h.freeCount, k.pending, h.pending]

/-- A run of operations that each keep the frame keeps it. -/
theorem FaultFrame.foldl {β : Type} {f : State → β → State} (h : ∀ s b, FaultFrame s (f s b)) (l : List β) (s : State) :
    FaultFrame s (l.foldl f s) := by
  induction l generalizing s with
  | nil => exact .refl s
  | cons b rest ih => exact (h s b).trans (ih _)

/-! ## Single fields -/

theorem faultFrame_setRecords (s : State) (x : Table FaultRecord) : FaultFrame s (s.setRecords x) := .of_eq rfl

theorem faultFrame_setNextId (s : State) (x : Nat) : FaultFrame s (s.setNextId x) := .of_eq rfl

theorem faultFrame_setWaiting (s : State) (x : List Nat) : FaultFrame s (s.setWaiting x) := .of_eq rfl

theorem faultFrame_setWalkList (s : State) (x : List WalkEntry) : FaultFrame s (s.setWalkList x) := .of_eq rfl

/-- A notice of FAULT class enters the transmit queue. -/
theorem faultFrame_notify (s : State) (n : Notice) (h : (FrameBody.notice n).rank = 1 := by rfl) :
    FaultFrame s (s.notify n) := by
  constructor
  case trunk => exact ⟨[⟨s.trunk.node, .notice n⟩], by simpa using h, rfl⟩
  all_goals first | rfl | (intro _; rfl)

theorem faultFrame_countOpen (s : State) : FaultFrame s s.countOpen := .of_eq rfl

theorem faultFrame_queueWalk (s : State) (a : Nat) (k : WalkKind) : FaultFrame s (s.queueWalk a k) :=
  faultFrame_setWalkList _ _

theorem faultFrame_adjustRecord (s : State) (id : Nat) (f : FaultRecord → FaultRecord) :
    FaultFrame s (s.adjustRecord id f) := faultFrame_setRecords _ _

/-- A change of one asset that keeps its configuration and window. -/
theorem faultFrame_adjustAsset (s : State) (a : Nat) (f : Asset → Asset) (hc : ∀ x, (f x).config = x.config)
    (hw : ∀ x, (f x).window = x.window) : FaultFrame s (s.adjustAsset a f) := by
  constructor
  case configs =>
    intro b
    simp only [State.asset?, State.adjustAsset, State.setAssets_assets, Table.get?_adjust]
    split
    · cases s.assets.get? b <;> simp [hc]
    · rfl
  case windows =>
    intro b
    simp only [State.asset?, State.adjustAsset, State.setAssets_assets, Table.get?_adjust]
    split
    · cases s.assets.get? b <;> simp [hw]
    · rfl
  case trunk => exact ⟨[], by simp, rfl⟩
  all_goals rfl

/-- A record put back for a present asset, with its configuration and window. -/
theorem faultFrame_putAsset {s : State} {a : Nat} {x y : Asset} (h : s.asset? a = some x) (hc : y.config = x.config)
    (hw : y.window = x.window) : FaultFrame s (s.putAsset a y) := by
  have hget (b : Nat) : (s.putAsset a y).asset? b = if b = a then some y else s.asset? b := by
    simp only [State.asset?, State.putAsset, State.setAssets_assets]
    split
    · rename_i e; subst e; exact Table.get?_put_self _ _ _
    · rename_i e; exact Table.get?_put_of_ne _ _ e
  constructor
  case configs => intro b; rw [hget]; split <;> simp_all
  case windows => intro b; rw [hget]; split <;> simp_all
  case trunk => exact ⟨[], by simp, rfl⟩
  all_goals rfl

/-! ## Requests -/

theorem faultFrame_onRecordOf (s : State) (a : Nat) (f : FaultRecord → FaultRecord) : FaultFrame s (s.onRecordOf a f) := by
  unfold State.onRecordOf
  split
  · exact faultFrame_adjustRecord _ _ _
  · exact .refl s

theorem faultFrame_raiseOn (s : State) (a : Nat) : FaultFrame s (s.raiseOn a) := faultFrame_onRecordOf _ _ _

theorem faultFrame_lowerOn (s : State) (a : Nat) : FaultFrame s (s.lowerOn a) := faultFrame_onRecordOf _ _ _

theorem faultFrame_refreshOn (s : State) (a : Nat) : FaultFrame s (s.refreshOn a) := faultFrame_onRecordOf _ _ _

theorem faultFrame_severityRaised (s : State) (a : Nat) : FaultFrame s (s.severityRaised a) := faultFrame_onRecordOf _ _ _

theorem faultFrame_sendChanged (s : State) (id : Nat) : FaultFrame s (s.sendChanged id) := by
  unfold State.sendChanged
  split
  · exact (faultFrame_notify _ _).trans (faultFrame_adjustRecord _ _ _)
  · exact .refl s

theorem faultFrame_countAtCreation (s : State) (a : Nat) : FaultFrame s (s.countAtCreation a) := by
  unfold State.countAtCreation
  split
  · exact .refl s
  · exact FaultFrame.foldl (fun s _ => faultFrame_raiseOn s a) _ _

theorem faultFrame_storeRecord (s : State) (a : Nat) (r : FaultRecord) : FaultFrame s (s.storeRecord a r) := by
  refine FaultFrame.trans ?_ (faultFrame_countOpen _)
  refine FaultFrame.trans ?_ (faultFrame_notify _ _)
  refine FaultFrame.trans ?_ (faultFrame_adjustAsset _ a _ ?_ ?_)
  · exact (faultFrame_setRecords s _).trans (faultFrame_setNextId _ _)
  · exact fun _ => rfl
  · exact fun _ => rfl

theorem faultFrame_createRecord (s : State) (a : Nat) : FaultFrame s (s.createRecord a) := by
  unfold State.createRecord
  split
  · exact .refl s
  · split
    · exact .refl s
    · dsimp only
      split
      · exact ((faultFrame_storeRecord _ _ _).trans (faultFrame_countAtCreation _ _)).trans (faultFrame_queueWalk _ _ _)
      · exact faultFrame_storeRecord _ _ _

theorem faultFrame_joinWaiting (s : State) (a : Nat) : FaultFrame s (s.joinWaiting a) :=
  (faultFrame_setWaiting _ _).trans (faultFrame_adjustAsset _ a _ (fun _ => rfl) (fun _ => rfl))

theorem faultFrame_leaveWaiting (s : State) (a : Nat) : FaultFrame s (s.leaveWaiting a) :=
  (faultFrame_setWaiting _ _).trans (faultFrame_adjustAsset _ a _ (fun _ => rfl) (fun _ => rfl))

theorem faultFrame_openFault (s : State) (a : Nat) : FaultFrame s (s.openFault a) := by
  unfold State.openFault
  split
  · exact .refl s
  · split
    · exact faultFrame_raiseOn _ _
    · split
      · exact faultFrame_createRecord _ _
      · exact faultFrame_joinWaiting _ _

theorem faultFrame_serveWaiting (s : State) : FaultFrame s s.serveWaiting := by
  unfold State.serveWaiting
  split
  · exact .refl s
  · refine FaultFrame.trans ?_ (faultFrame_createRecord _ _)
    refine FaultFrame.trans (faultFrame_setWaiting _ _) (faultFrame_adjustAsset _ _ _ ?_ ?_) <;> exact fun _ => rfl

theorem faultFrame_discardRecord (s : State) (id a : Nat) : FaultFrame s (s.discardRecord id a) :=
  (faultFrame_setRecords _ _).trans (faultFrame_adjustAsset _ a _ (fun _ => rfl) (fun _ => rfl))

theorem faultFrame_clearRecord (s : State) (id a : Nat) (manual : Bool) : FaultFrame s (s.clearRecord id a manual) := by
  unfold State.clearRecord
  have h := (faultFrame_discardRecord s id a).trans (faultFrame_notify _ (.cleared id a manual))
  dsimp only
  split
  · exact (h.trans (faultFrame_queueWalk _ _ _)).trans (faultFrame_serveWaiting _)
  · exact h.trans (faultFrame_serveWaiting _)

theorem faultFrame_becameHealthy (s : State) (a : Nat) : FaultFrame s (s.becameHealthy a) := by
  unfold State.becameHealthy
  split
  · exact .refl s
  · split
    · exact faultFrame_clearRecord _ _ _ _
    · exact faultFrame_lowerOn _ _
    · split
      · exact faultFrame_leaveWaiting _ _
      · exact .refl s

theorem faultFrame_absorbRecord (s : State) (id d absorbing : Nat) : FaultFrame s (s.absorbRecord id d absorbing) :=
  ((faultFrame_discardRecord _ _ _).trans (faultFrame_notify _ _)).trans (faultFrame_serveWaiting _)

/-! ## The sample -/

theorem faultFrame_handChange (s : State) (a : Nat) (before after : Health) :
    FaultFrame s (s.handChange a before after) := by
  unfold State.handChange
  split
  · exact faultFrame_openFault _ _
  · exact faultFrame_becameHealthy _ _
  · exact faultFrame_severityRaised _ _
  · exact .refl s

theorem faultFrame_sample (s : State) (a : Nat) : FaultFrame s (s.sample a) := by
  unfold State.sample
  split
  · exact .refl s
  · rename_i x h
    refine FaultFrame.trans ?_ (faultFrame_handChange _ _ _ _)
    exact faultFrame_putAsset h rfl rfl

theorem faultFrame_sampleAll (s : State) (as : List Nat) : FaultFrame s (s.sampleAll as) :=
  FaultFrame.foldl faultFrame_sample as s

end Sys2Proof.Machine
end

