-- ==== Sys2Proof/Laws/TickWork.lean ====
section
/-! SUPPORT. What the work of a tick leaves alone, and that `State.finishOwed` leaves none of it owed: one relation
between the state before and the state after, kept by each block's work and by any run of it. -/

namespace Sys2Proof.Machine

/-- What a block's work at a tick leaves as it was. What may change: outstations, assets, records, next-ID, the waiting
list, the walk list, the storm monitor, the beacons and the transmit queue. -/
structure TickFrame (s t : State) : Prop where
  resetHeld : t.resetHeld = s.resetHeld
  mode : t.mode = s.mode
  time : t.time = s.time
  lines : t.lines = s.lines
  points : t.points = s.points
  drops : t.drops = s.drops
  faultProfiles : t.faultProfiles = s.faultProfiles
  loopProfiles : t.loopProfiles = s.loopProfiles
  walk : t.walk = s.walk
  rebuild : t.rebuild = s.rebuild
  node : t.trunk.node = s.trunk.node
  alternate : t.trunk.alternate = s.trunk.alternate
  pending : t.pending = s.pending

theorem TickFrame.refl (s : State) : TickFrame s s := by constructor <;> rfl

theorem TickFrame.trans {s t u : State} (h : TickFrame s t) (k : TickFrame t u) : TickFrame s u := by
  constructor <;> simp only [k.resetHeld, h.resetHeld, k.mode, h.mode, k.time, h.time, k.lines, h.lines, k.points,
    h.points, k.drops, h.drops, k.faultProfiles, h.faultProfiles, k.loopProfiles, h.loopProfiles, k.walk, h.walk,
    k.rebuild, h.rebuild, k.node, h.node, k.alternate, h.alternate, k.pending, h.pending]

/-- Placing frames leaves the addresses. -/
theorem foldl_place_addresses (fs : List TrunkFrame) (t : Trunk) :
    (fs.foldl Trunk.place t).node = t.node ∧ (fs.foldl Trunk.place t).alternate = t.alternate := by
  induction fs generalizing t with
  | nil => exact ⟨rfl, rfl⟩
  | cons f fs ih => simpa using ih (t.place f)

theorem FaultFrame.tickFrame {s t : State} (h : FaultFrame s t) : TickFrame s t := by
  obtain ⟨fs, -, ht⟩ := h.trunk
  refine ⟨h.resetHeld, h.mode, h.time, h.lines, h.points, h.drops, h.faultProfiles, h.loopProfiles, h.walk, h.rebuild,
    ?_, ?_, h.pending⟩ <;> simp [ht, foldl_place_addresses]

/-- A block's work itself leaves alone the work still owed and the count of free values too. -/
structure WorkFrame (s t : State) : Prop extends TickFrame s t where
  owed : t.owed = s.owed
  freeCount : t.freeCount = s.freeCount

theorem WorkFrame.refl (s : State) : WorkFrame s s := ⟨.refl s, rfl, rfl⟩

theorem WorkFrame.trans {s t u : State} (h : WorkFrame s t) (k : WorkFrame t u) : WorkFrame s u :=
  ⟨h.toTickFrame.trans k.toTickFrame, k.owed.trans h.owed, k.freeCount.trans h.freeCount⟩

theorem FaultFrame.workFrame {s t : State} (h : FaultFrame s t) : WorkFrame s t := ⟨h.tickFrame, h.owed, h.freeCount⟩

theorem WorkFrame.foldl {β : Type} {f : State → β → State} (h : ∀ s b, WorkFrame s (f s b)) (l : List β) (s : State) :
    WorkFrame s (l.foldl f s) := by
  induction l generalizing s with
  | nil => exact .refl s
  | cons b l ih => exact (h s b).trans (ih _)

theorem workFrame_settleBeacons (s : State) : WorkFrame s s.settleBeacons := ⟨by constructor <;> rfl, rfl, rfl⟩

theorem workFrame_rankerMinute (s : State) : WorkFrame s s.rankerMinute := by
  have escalated : WorkFrame s s.escalateAll := by
    unfold State.escalateAll
    split
    · exact (faultFrame_setRecords s _).workFrame
    · exact .refl s
  refine escalated.trans ?_
  unfold State.rankerMinute State.coalesce
  split
  · exact (FaultFrame.foldl faultFrame_sendChanged _ _).workFrame
  · exact .refl _

theorem workFrame_closeWindow (dayMinute : Nat) (s : State) (a : Nat) : WorkFrame s (s.closeWindow dayMinute a) := by
  unfold State.closeWindow
  split
  · exact .refl s
  · split
    · exact .refl s
    · exact WorkFrame.trans (t := s.putAsset a _) ⟨by constructor <;> rfl, rfl, rfl⟩ (faultFrame_sample _ _).workFrame

theorem workFrame_closeWindows (s : State) : WorkFrame s s.closeWindows := by
  unfold State.closeWindows
  split
  · exact .foldl (workFrame_closeWindow _) _ _
  · exact .refl s

theorem workFrame_stormMinute (s : State) : WorkFrame s s.stormMinute := by
  have set (m : Storm) : WorkFrame s (s.setStorm m) := ⟨by constructor <;> rfl, rfl, rfl⟩
  unfold State.stormMinute
  split
  · dsimp only
    split
    · exact (set _).trans (faultFrame_notify _ _).workFrame
    · exact set _
  · exact set _

theorem workFrame_lineSecond (s : State) (k : Fin 4) : WorkFrame s (s.lineSecond k) := by
  unfold State.lineSecond
  split <;> exact ⟨by constructor <;> rfl, rfl, rfl⟩

/-- A block's work at a tick, whichever block it is. -/
theorem workFrame_tickWork (s : State) (w : TickWork) : WorkFrame s (s.tickWork w) := by
  cases w with
  | line k => exact workFrame_lineSecond s k
  | beacon b => exact ⟨by constructor <;> rfl, rfl, rfl⟩
  | ranker => exact (workFrame_rankerMinute s).trans (workFrame_settleBeacons _)
  | windows => exact (workFrame_closeWindows s).trans (workFrame_settleBeacons _)
  | storm => exact (workFrame_stormMinute s).trans (workFrame_settleBeacons _)

theorem tickFrame_doOwed (s : State) (w : TickWork) : TickFrame s (s.doOwed w) := by
  unfold State.doOwed
  split
  · exact TickFrame.trans (t := s.setOwed _) (by constructor <;> rfl) (workFrame_tickWork _ w).toTickFrame
  · exact .refl s

/-- Work done is work no longer owed, and work not owed is not done. -/
@[simp] theorem State.doOwed_owed (s : State) (w : TickWork) : (s.doOwed w).owed = s.owed.erase w := by
  by_cases h : w ∈ s.owed
  · rw [State.doOwed_of_mem h, (workFrame_tickWork _ w).owed, State.setOwed_owed]
  · rw [State.doOwed_of_not_mem h, List.erase_of_not_mem h]

theorem tickFrame_foldl_doOwed (ws : List TickWork) (s : State) : TickFrame s (ws.foldl State.doOwed s) := by
  induction ws generalizing s with
  | nil => exact .refl s
  | cons w ws ih => exact (tickFrame_doOwed s w).trans (ih _)

theorem State.foldl_doOwed_owed (ws : List TickWork) (s : State) : (ws.foldl State.doOwed s).owed = s.owed.diff ws := by
  induction ws generalizing s with
  | nil => rfl
  | cons w ws ih => simpa [List.diff_cons] using ih (s.doOwed w)

/-- Work done once each leaves none of it. -/
theorem diff_self {α : Type} [BEq α] [LawfulBEq α] (l : List α) : l.diff l = [] := by
  induction l with
  | nil => rfl
  | cons x l ih => simpa [List.diff_cons] using ih

/-- Finishing the owed work is the work of the blocks and nothing else. -/
theorem tickFrame_finishOwed (s : State) : TickFrame s s.finishOwed := by
  unfold State.finishOwed
  split
  · exact .refl s
  · exact (tickFrame_foldl_doOwed _ s).trans (by constructor <;> rfl)

/-- Nothing is owed afterwards. -/
@[simp] theorem State.finishOwed_owed (s : State) : s.finishOwed.owed = [] := by
  unfold State.finishOwed
  split
  · assumption
  · next w rest h =>
    rw [State.setFreeCount_owed, State.foldl_doOwed_owed, h, (freeOrder_perm _ _).diff_left]
    simp [diff_self]

end Sys2Proof.Machine
end

