-- ==== Sys2Proof/Tests/Slice0.lean ====
section
/-! SUPPORT. Tests on small states: the checks of WellFormed, the manual's worked examples and tables, one or two small
theorems per command, and for each statement with hypotheses a state and operands that meet them. Every expected value
is the manual's own or worked by hand from its rules; the rule stands in the test's comment. -/

namespace Sys2Proof.Tests

-- One test after another: tests checked side by side would each hold a thread of their own.
set_option Elab.async false

open Sys2Proof.Machine

/-! ## Helpers -/

/-- The next state of an outcome. -/
def after (o : Host.Outcome State Fault Refusal) : State :=
  match o with
  | .next t => t
  | .fault _ => State.reset
  | .refused _ => State.reset

/-- The reply code and data of the newest waiting frame. -/
def answer (s : State) : Option (ReplyCode × List Byte) :=
  match s.trunk.waiting.getLast? with
  | some ⟨_, .reply _ code data⟩ => some (code, data)
  | _ => none

/-- The power-on state with its START notice sent: MAINTAIN, every table empty. -/
def quietPart : State := { State.reset with trunk := { State.reset.trunk with waiting := [] } }

def plainAsset (kind : Kind) (parent : Option Nat) : Asset :=
  { config := ⟨kind, parent, 16, 0, none⟩, integrator := 0, health := .healthy, absorbedBy := none, faultId := none,
    waiting := false, window := none }

def loopWindow (count : Nat) (gap : Bool) : Window := { count := count, gap := gap, last := none, result := .ok }

def loopAsset (w : Window) : Asset :=
  { plainAsset .loop none with config := ⟨.loop, none, 16, 0, some 0⟩, window := some w }

def station (address : Nat) (link : Option Nat) : Outstation :=
  { config := ⟨address, .changes, link⟩, comms := .online, retry := 0, lastHeard := some 100, countdown := 0,
    fullDue := false, integrityDue := false }

def lineOfKind (p : Personality) : Line :=
  { Line.powerOn with settings := { LineSettings.powerOn with personality := p } }

/-- The record of a cabinet under the power-on profile with n 1: U = 1024 × 16 / 16 + 1 × 16 (R143). -/
def cabinetRecord : FaultRecord :=
  { asset := 210, severity := .fail, state := .opened, openedRun := 5, openedDay := none, steps := 0, minutes := 0,
    absorbed := 1, urgency := 1040, console := none, changeDue := false }

/-- A small county in RUN: cabinet 210 holds record 47, lamp 300 is FAULTY and absorbed by it, lamp 301 HEALTHY below it,
loop 1500 a root; LU1 POLLED with station 9, LU2 EXCEPTION with station 3. -/
def county : State :=
  { quietPart with
    mode := .run
    assets := [
      (210, { plainAsset .cabinet none with integrator := 12, health := .faulty .fail, faultId := some 47 }),
      (300, { plainAsset .lamp (some 210) with integrator := 9, health := .faulty .fail, absorbedBy := some 210 }),
      (301, { plainAsset .lamp (some 210) with absorbedBy := some 210 }),
      (1500, loopAsset (loopWindow 100 false))]
    outstations := [(5, station 9 (some 210)), (33, station 3 none)]
    lines := quietPart.lines.set 0 (lineOfKind .polled) |>.set 1 (lineOfKind .exception)
    points := [(5132, .status 300 .ok), (5133, .count 1500 (some 400)), (5140, .pending .degraded none)]
    records := [(47, cabinetRecord)]
    nextId := 48 }

/-- The county with a transaction in hand on LU1. -/
def withTransaction (kind : TransactionKind) (phase : Phase) : State :=
  county.setLines (county.lines.set 0 { lineOfKind .polled with transaction := some ⟨kind, 5, phase, none⟩ })

/-- A state at the given counts with a tick's work owed by every block, every line and every beacon. -/
def owing (s : State) (counts : TimeBase) : State := (s.setTime counts).setOwed (secondWork ++ minuteWork)

/-- A state at the given day-minute with its window close owed and nothing else. -/
def owingClose (s : State) (dayMinute : Nat) : State :=
  (s.setTime { s.time with dayMinute := some dayMinute }).setOwed [.windows]

def orderEntry : Downlink := { outstation := 5, payload := [7], tag := 49, addr := 1 }

/-- The county with a walk in flight. -/
def withWalk (kind : WalkKind) (root : Nat) (recorded : Option Nat) : State :=
  county.setWalk (some ⟨root, kind, recorded, []⟩)

/-! ## WellFormed: one refused term for each check -/

theorem test_wf_refuses_long_coded_request :
    (Instr.partLoad 1 (.coded 0 (List.replicate 249 0))).wf = false := by decide +kernel
theorem test_wf_takes_longest_coded_request :
    (Instr.partLoad 1 (.coded 0 (List.replicate 248 0))).wf = true := by decide +kernel
theorem test_wf_refuses_long_request : (Instr.list 1 (.tagged 0 (List.replicate 250 0))).wf = false := by decide +kernel
theorem test_wf_refuses_known_kind_as_unknown : (Instr.unknownKind 1 0x24 .empty).wf = false := by decide +kernel
theorem test_wf_refuses_long_unknown_kind :
    (Instr.unknownKind 1 0x11 (.tagged 0 (List.replicate 250 0))).wf = false := by decide +kernel
theorem test_wf_refuses_ignored_group_mode : (Instr.trunkFrameIgnored 254 0x29).wf = false := by decide +kernel
theorem test_wf_refuses_long_tally : (Instr.tally 0 9 (List.replicate 256 0)).wf = false := by decide +kernel
theorem test_wf_refuses_long_quiet : (Instr.quiet 0 9 (List.replicate 256 0)).wf = false := by decide +kernel
theorem test_wf_refuses_stray_order : (Instr.stray 0 9 0x10 []).wf = false := by decide +kernel
theorem test_wf_refuses_long_stray : (Instr.stray 0 9 0x11 (List.replicate 256 0)).wf = false := by decide +kernel
theorem test_wf_takes_any_field_bytes : (Instr.fieldFrameDiscard 0 (List.replicate 300 0x5A)).wf = true := by
  decide +kernel

/-! ## Frames -/

/-- R194: the check of the bytes 0x31 to 0x39 is 0x29B1. -/
theorem test_check_of_nine_digits :
    crc16 [0x31, 0x32, 0x33, 0x34, 0x35, 0x36, 0x37, 0x38, 0x39] = 0x29B1 := by decide +kernel

/-- Worked example of section 12.4: the three records of a TALLY. -/
theorem test_tally_records_read :
    (readRecords 3 [0x03, 0x01, 0x03, 0x44, 0x01, 0xCC, 0x05, 0x03]).map
        (fun rs => rs.map fun r => (r.code, r.condition, r.count.map BitVec.toNat))
      = some [(12, .ok, none), (13, .unknown, some 460), (20, .fail, none)] := by decide +kernel

/-- R195, R181: the TALLY of station 9 as a whole frame on LU1, after one byte of noise. -/
theorem test_field_frame_is_tally :
    (withTransaction (.sweep false) .awaiting).fieldNext 0 (0x00 :: frameBytes 9 0x11 [0x01, 0x03, 0x01])
      = (.tally 0 9 [0x01, 0x03, 0x01], []) := by decide +kernel

/-- R181, R196: MODE RUN with tag 49 on the group address. -/
theorem test_trunk_frame_is_mode_run :
    county.trunkNext (frameBytes 254 0x29 [49, 1]) = some (.modeRun 254 (.coded 49 []), []) := by decide +kernel

/-- R182: a directive for another node is ignored. -/
theorem test_trunk_frame_for_another_node :
    county.trunkNext (frameBytes 2 0x24 [49, 0, 1, 8]) = some (.trunkFrameIgnored 2 0x24, []) := by decide +kernel

/-- Log 3: the table gives no bits. -/
theorem test_no_word_spells_a_command : decodeTableWord 8 0x21 = none := by decide +kernel

/-! ## The manual's worked examples -/

/-- Worked example of section 8.1: the five urgencies (R143). -/
theorem test_urgency_values :
    let p (base k s : Nat) : FaultProfile := { FaultProfile.powerOn with baseFail := base, perAbsorbed := k, perStep := s }
    [urgencyOf (p 1200 40 100) .fail 24 7 2, urgencyOf (p 4000 63 255) .fail 255 40 3, urgencyOf (p 0 10 32) .fail 1 300 0,
      urgencyOf (p 300 16 32) .fail 5 0 0, urgencyOf (p 1024 16 255) .fail 1 0 15]
      = [2280, 65535, 2550, 93, 3889] := by decide +kernel

/-- Worked example of section 8.4: the queue order of five records, given here by fault ID (R149). -/
theorem test_ranks_with_ties :
    let record (u run : Nat) : FaultRecord := { cabinetRecord with urgency := u, openedRun := run }
    (({ county with records := [(7, record 65535 5100), (12, record 2280 5000), (40, record 2280 4990),
        (41, record 2280 4990), (90, record 380 4000)] } : State).dispatchQueue.map Prod.fst)
      = [7, 40, 41, 12, 90] := by decide +kernel

/-- Worked example of section 6.1: IDs across the wrap (R100). -/
theorem test_ids_across_the_wrap :
    let used (ids : List Nat) : Table FaultRecord := ids.map fun i => (i, cabinetRecord)
    freeIdFrom (used [1, 4, 65535]) 3 65534 = 65534 ∧ freeIdFrom (used [1, 4, 65534, 65535]) 4 65535 = 2
      ∧ freeIdFrom (used [1, 2, 3, 4, 65535]) 5 4 = 5 := by decide +kernel

/-- Worked example of section 5.3: deltas against one baseline, with Dmax 1200 (R84, R85). -/
theorem test_deltas_against_one_baseline :
    let w0 : Window := { count := 0, gap := false, last := none, result := .ok }
    let steps : List (Option Nat × Nat) := [(none, 65400), (some 65400, 230), (some 230, 230), (some 230, 5000),
      (some 5000, 4997), (some 4997, 5100)]
    steps.foldl (fun (acc : Window × List (Nat × Bool)) e =>
        (acc.1.counted 1200 e.1 e.2, acc.2 ++ [((acc.1.counted 1200 e.1 e.2).count, (acc.1.counted 1200 e.1 e.2).gap)]))
      (w0, []) |>.2
      = [(0, false), (366, false), (366, false), (366, true), (366, true), (469, true)] := by decide +kernel

/-- Worked example of section 9.3: a storm night with Se 40, Sx 10 and Q 3 (R162, R163): the calm count and the state
after each minute. -/
theorem test_storm_night :
    ([12, 45, 130, 25, 8, 11, 3, 0, 6].foldl (fun (acc : Storm × List (Bool × Nat)) opens =>
        let m := ({ acc.1 with opens := opens } : Storm).evaluated.1
        (m, acc.2 ++ [(m.on, m.calm)]))
      ({ Storm.powerOn with entry := 40, exit := 10, calmPeriod := 3 }, [])).2
      = [(false, 0), (true, 0), (true, 0), (true, 0), (true, 1), (true, 0), (true, 1), (true, 2), (false, 0)] := by
  decide +kernel

/-- Worked example of section 11.6: arrivals at a full queue (R189), with the classes of the waiting frames counted as
FAULT, RELAY and REPLY. -/
theorem test_overflow_during_a_feeder_trip :
    let fault : TrunkFrame := ⟨1, .notice (.cleared 1 1 false)⟩
    let relay : TrunkFrame := ⟨1, .notice (.relay 5 [])⟩
    let reply : TrunkFrame := ⟨1, .reply 0 .done []⟩
    let full : Trunk := { Trunk.powerOn with
      waiting := List.replicate 55 fault ++ List.replicate 8 relay, sending := some ⟨reply, false, false, true⟩ }
    let counts (t : Trunk) : Nat × Nat × Nat × Bool :=
      (t.waiting.count fault, t.waiting.count relay, t.waiting.count reply, t.lost)
    let six : Trunk := (List.replicate 7 fault).foldl Trunk.place ((full.place relay).place fault)
    counts (full.place relay) = (55, 8, 0, true) ∧ counts ((full.place relay).place fault) = (56, 7, 0, true)
      ∧ counts six = (63, 0, 0, true) ∧ counts (six.place fault) = (63, 0, 0, true)
      ∧ counts (six.place reply) = (62, 0, 1, true) := by decide +kernel

/-- Worked example of section 1.8: the worst of OK, UNKNOWN and DEGRADED at one sample (R13). -/
theorem test_worst_condition : worstOf [.ok, .unknown, .degraded] = .degraded := by decide +kernel

/-- R90: the five results of a closing window, in the order of its table, and the saturated count. -/
theorem test_loop_check_results :
    let w (c : Nat) (gap : Bool) : Window := loopWindow c gap
    [(w 500 true).check ⟨0, 5, 50⟩, (w 0 false).check ⟨0, 5, 50⟩, (w 4 false).check ⟨0, 5, 50⟩,
      (w 51 false).check ⟨0, 5, 50⟩, (w 50 false).check ⟨0, 5, 50⟩, (w 65535 false).check ⟨0, 0, 65535⟩]
      = [.unknown, .fail, .degraded, .degraded, .ok, .ok] := by decide +kernel

/-- R89: a window that closes at day-minute 0 is judged by the last band; one that starts at a band's start, by it. -/
theorem test_band_of_a_window :
    (LoopProfile.powerOn.bandAt (windowStart 0 15)).start = 1080
      ∧ (LoopProfile.powerOn.bandAt (windowStart 375 15)).start = 360
      ∧ (LoopProfile.powerOn.bandAt (windowStart 374 15)).start = 0 := by decide +kernel

/-- Worked example of section 3.5: the RELAY under CHANGES carries five of seven records (R60, R61). -/
theorem test_relay_under_changes :
    let entries : Table Point := [(5132, .status 1500 .ok), (5133, .count 1500 (some 400)), (5140, .status 1620 .ok),
      (5141, .status 1620 .fail), (5150, .pending .degraded none), (5151, .status 1700 .degraded)]
    let record (code condition : Nat) : PointRecord := ⟨BitVec.ofNat 16 (64 * code + condition), none⟩
    let rs := [record 12 3, ⟨BitVec.ofNat 16 (64 * 13 + 5), some 460⟩, record 21 1, record 30 3, record 44 2, record 12 2,
      record 20 1]
    ((relaySelection .changes entries 5 rs).map fun r => (r.code, r.condition))
      = [(12, .fail), (21, .ok), (30, .fail), (44, .degraded), (12, .degraded)] := by decide +kernel

/-- Worked example of section 1.4: depth at the limit (R5), steps 1 to 3, and the children in ascending number. -/
theorem test_depth_at_the_limit :
    let s : State := { quietPart with assets := [
      (100, plainAsset .feeder none), (101, plainAsset .feeder none), (210, plainAsset .cabinet (some 100)),
      (220, plainAsset .cabinet (some 101)), (305, plainAsset .junction (some 210)),
      (306, plainAsset .junction (some 305)), (1500, plainAsset .lamp (some 306))] }
    let loadOf (a : Nat) (parent : Nat) : Instr :=
      .assetLoad 1 (.coded 7 (be16 a ++ be8 3 ++ be16 parent ++ [1, 0, 0xFF]))
    let t := after (exec (loadOf 1501 1500) s)
    answer t = some (.done, []) ∧ t.heightOf 100 = 6
      ∧ answer (after (exec (loadOf 1502 1501) t)) = some (.conflict, [])
      ∧ answer (after (exec (loadOf 101 1500) t)) = some (.conflict, []) := by decide +kernel

/-- Worked example of section 7.6: a CLOSE queues RELEASE, and the reopening turns the entry to ABSORB in its place
(R127). -/
theorem test_queue_entry_converted :
    queueEntry (queueEntry [⟨330, .absorb⟩] 210 .release) 210 .absorb = [⟨330, .absorb⟩, ⟨210, .absorb⟩] := by decide +kernel

/-! ## Commands -/

/-- R180: node 5 with alternate 7 is taken in MAINTAIN; an alternate equal to the node is CONFLICT. -/
theorem test_part_load :
    (after (exec (.partLoad 1 (.coded 9 [0, 5, 7])) quietPart)).trunk.node = 5
      ∧ answer (after (exec (.partLoad 1 (.coded 9 [0, 5, 5])) quietPart)) = some (.conflict, []) := by decide +kernel

/-- R180: an ERASE leaves node 1 and no alternate; in RUN it is BAD-MODE. -/
theorem test_part_erase :
    (after (exec (.partErase 1 (.coded 9 [0]))
        { quietPart with trunk := { quietPart.trunk with alternate := some 7 } })).trunk.alternate = none
      ∧ answer (after (exec (.partErase 1 (.coded 9 [0])) county)) = some (.badMode, []) := by decide +kernel

/-- R180: a READ without an alternate shows 255 for it. -/
theorem test_part_read : answer (after (exec (.partRead 1 (.coded 9 [0])) county)) = some (.done, [1, 255]) := by
  decide +kernel

/-- R17, R18: T1 0 is clamped to 1, G 5 to 10, Fmax 3 to 16. -/
theorem test_line_load_clamps :
    ((after (exec (.lineLoad 1 (.coded 9 [1, 1, 0, 9, 99, 0, 5, 3])) quietPart)).line 0).settings
      = { personality := .polled, t1 := 1, n2 := 7, rv := 15, g := 10, fmax := 16 } := by decide +kernel

/-- R18: line 5 does not exist. -/
theorem test_line_erase_index :
    answer (after (exec (.lineErase 1 (.coded 9 [5])) quietPart)) = some (.badIndex, []) := by decide +kernel

/-- R43, R197: LU1 after power-on: OFF, T1 50, N2 2, Rv 4, G 300, Fmax 128, state OFF, nothing awaited. -/
theorem test_line_read :
    (answer (after (exec (.lineRead 1 (.coded 9 [1])) quietPart))).map (fun r => r.2.take 13)
      = some [0, 50, 2, 4, 1, 44, 128, 0, 255, 0, 0, 0, 0] := by decide +kernel

/-- R21: policy code 3 names nothing; station address 251 is out of range. -/
theorem test_outstation_load_fields :
    answer (after (exec (.outstationLoad 1 (.coded 9 [5, 9, 3, 255, 255])) quietPart)) = some (.badEntry, [])
      ∧ answer (after (exec (.outstationLoad 1 (.coded 9 [5, 251, 0, 255, 255])) quietPart)) = some (.badEntry, []) := by
  decide +kernel

/-- R22: an outstation with a RESOLVED point is not erased. -/
theorem test_outstation_erase_conflict :
    answer (after (exec (.outstationErase 1 (.coded 9 [5])) (county.setMode .maintain))) = some (.conflict, []) := by
  decide +kernel

/-- R44, R197: an absent outstation reads 0 and fourteen bytes 255. -/
theorem test_outstation_read_absent :
    answer (after (exec (.outstationRead 1 (.coded 9 [6])) county)) = some (.done, 0 :: List.replicate 14 255) := by
  decide +kernel

/-- Worked example of section 1.6, steps 1 and 3: a lamp below an absorbed asset takes its absorber; a changed parent is
BAD-MODE in RUN. -/
theorem test_asset_load_in_run :
    ((after (exec (.assetLoad 1 (.coded 9 [5, 222, 3, 1, 45, 8, 0, 255])) county)).absorbedByOf 1502) = some 210
      ∧ answer (after (exec (.assetLoad 1 (.coded 9 [1, 45, 3, 255, 255, 8, 0, 255])) county)) = some (.badMode, []) := by
  decide +kernel

/-- R12: an asset with children stays; an absent one is DONE. -/
theorem test_asset_erase :
    answer (after (exec (.assetErase 1 (.coded 9 [0, 210])) county)) = some (.conflict, [])
      ∧ answer (after (exec (.assetErase 1 (.coded 9 [0, 7])) county)) = some (.done, []) := by decide +kernel

/-- R197: a present CABINET reads its kind 1, no parent, W 16, profile 0, no loop profile, I 12, FAULTY FAIL, record 47. -/
theorem test_asset_read :
    (answer (after (exec (.assetRead 1 (.coded 9 [0, 210])) county))).map (fun r => r.2.take 15)
      = some [1, 1, 255, 255, 16, 0, 255, 12, 1, 3, 255, 255, 0, 47, 0] := by decide +kernel

/-- R55: a POINT LOAD takes over the condition a placeholder held. -/
theorem test_point_load_resolves :
    (after (exec (.pointLoad 1 (.coded 9 [5, 0, 20, 1, 45, 0])) county)).points.get? 5140
      = some (.status 301 .degraded) := by decide +kernel

/-- R57: a POINT ERASE removes a placeholder. -/
theorem test_point_erase :
    (after (exec (.pointErase 1 (.coded 9 [5, 0, 20])) county)).points.get? 5140 = none := by decide +kernel

/-- R64, R197: a COUNT point naming 1500 with baseline 400. -/
theorem test_point_read :
    answer (after (exec (.pointRead 1 (.coded 9 [5, 0, 13])) county)) = some (.done, [1, 5, 220, 1, 255, 1, 1, 144]) := by
  decide +kernel

/-- R66, R67: Topen 20 above Imax 10 is stored as 10, and the cabinet's I of 12 is clamped. -/
theorem test_fault_profile_load :
    let t := after (exec (.faultProfileLoad 1 (.coded 9 [0, 4, 1, 1, 10, 20, 4, 0, 1, 0, 16, 32, 0]))
      (county.setMode .maintain))
    (t.faultProfile 0).threshold = 10 ∧ (t.asset? 210).map Asset.integrator = some 10 := by decide +kernel

/-- R65, R197: profile 3 after power-on. -/
theorem test_fault_profile_read :
    answer (after (exec (.faultProfileRead 1 (.coded 9 [3])) quietPart))
      = some (.done, [4, 1, 1, 12, 8, 4, 0, 1, 0, 16, 32, 0]) := by decide +kernel

theorem test_fault_profile_erase_in_run :
    answer (after (exec (.faultProfileErase 1 (.coded 9 [0])) county)) = some (.badMode, []) := by decide +kernel

/-- R80: Wlen 7 is no window length. -/
theorem test_loop_profile_load_length :
    answer (after (exec (.loopProfileLoad 1 (.coded 9 (0 :: 7 :: List.replicate 26 0))) quietPart))
      = some (.badEntry, []) := by decide +kernel

/-- R81: an ERASE sets the gap flag of the LOOPs that name the profile. -/
theorem test_loop_profile_erase_gap :
    ((after (exec (.loopProfileErase 1 (.coded 9 [0])) (county.setMode .maintain))).asset? 1500).bind
      (fun x => x.window) = some (loopWindow 100 true) := by decide +kernel

theorem test_loop_profile_read_index :
    answer (after (exec (.loopProfileRead 1 (.coded 9 [8])) county)) = some (.badIndex, []) := by decide +kernel

/-- R159: Q 61 is out of range, Q 60 is taken. -/
theorem test_storm_load :
    answer (after (exec (.stormLoad 1 (.coded 9 [0, 40, 10, 61])) county)) = some (.badEntry, [])
      ∧ (after (exec (.stormLoad 1 (.coded 9 [0, 40, 10, 60])) county)).storm.calmPeriod = 60 := by decide +kernel

theorem test_storm_read :
    answer (after (exec (.stormRead 1 (.coded 9 [0])) quietPart)) = some (.done, [0, 0, 10, 0, 0, 0, 0]) := by
  decide +kernel

theorem test_storm_erase :
    (after (exec (.stormErase 1 (.coded 9 [0])) { county with storm := { Storm.powerOn with entry := 40, opens := 3 } })).storm
      = { Storm.powerOn with opens := 3 } := by decide +kernel

/-- R166, R168: a beacon loaded with source ON and a minimum on-time of 5 s starts with T + 1. -/
theorem test_beacon_load :
    (after (exec (.beaconLoad 1 (.coded 9 [1, 1, 0, 0, 3])) county)).beacon 0
      = { source := .on, argument := 0, stretch := .s5, value := true, output := true, count := 6, latch := false } := by
  decide +kernel

theorem test_beacon_erase :
    ((after (exec (.beaconErase 1 (.coded 9 [1]))
      (after (exec (.beaconLoad 1 (.coded 9 [1, 1, 0, 0, 7])) county)))).beacon 0) = Beacon.powerOn := by decide +kernel

theorem test_beacon_read_index :
    answer (after (exec (.beaconRead 1 (.coded 9 [5])) county)) = some (.badIndex, []) := by decide +kernel

/-- R169: a reset turns a latched output off only while its source is false. -/
theorem test_beacon_reset :
    let latched (source : BeaconSource) : State := county.setBeacons (county.beacons.set 0
      ⟨source, 0, .latched, source = .on, true, 0, true⟩)
    ((after (exec (.beaconReset 1 (.tagged 9 [1])) (latched .off))).beacon 0).output = false
      ∧ ((after (exec (.beaconReset 1 (.tagged 9 [1])) (latched .on))).beacon 0).output = true := by decide +kernel

/-- R151, R197: one summary, of 13 bytes behind the number 1: U 1040, n 1, day absent. -/
theorem test_list :
    answer (after (exec (.list 1 (.tagged 9 [0, 1, 8])) county))
      = some (.done, [1, 0, 47, 0, 210, 3, 0, 4, 16, 0, 1, 0, 255, 255]) := by decide +kernel

/-- R121: by ID 0 NO-SUCH; by asset, the record asset 210 holds has rank 1. -/
theorem test_fault_by_id_and_asset :
    answer (after (exec (.faultById 1 (.coded 9 [0, 0])) county)) = some (.noSuch, [])
      ∧ (answer (after (exec (.faultByAsset 1 (.coded 9 [0, 210])) county))).map (fun r => r.2.drop 18)
        = some [0, 0, 0, 1] := by decide +kernel

/-- R115, R116: an ACK of console 2; a second ACK of console 3 changes nothing. -/
theorem test_ack :
    let t := after (exec (.ack 1 (.tagged 9 [0, 47, 2])) county)
    (t.records.get? 47).map FaultRecord.console = some (some 2)
      ∧ (after (exec (.ack 1 (.tagged 9 [0, 47, 3])) t)).records = t.records := by decide +kernel

/-- R118: a CLOSE removes the record, resets the cabinet and queues RELEASE for it. -/
theorem test_close :
    let t := after (exec (.close 1 (.tagged 9 [0, 47])) county)
    t.records = [] ∧ (t.asset? 210).map Asset.health = some .healthy ∧ t.walkList = [⟨210, .release⟩] := by decide +kernel

/-- R173: day-minute 1440 is refused; a TIME of a later second sets the clock. -/
theorem test_time :
    answer (after (exec (.time 1 (.tagged 9 [5, 160, 0])) county)) = some (.badEntry, [])
      ∧ (after (exec (.time 1 (.tagged 9 [5, 159, 59])) county)).time
        = { second := 59, runMinute := 0, dayMinute := some 1439 } := by decide +kernel

/-- R175: with no asset the part enters RUN within the MODE RUN; with assets it is ENTERING and owes the reply. -/
theorem test_mode_run :
    (after (exec (.modeRun 1 (.coded 49 [])) quietPart)).mode = .run
      ∧ (after (exec (.modeRun 1 (.coded 49 [])) (county.setMode .maintain))).rebuild
        = some { last := none, owed := some ⟨1, 49⟩ } := by decide +kernel

/-- R177, R41: leaving RUN answers ABORTED for the ORDER in hand. -/
theorem test_mode_maintain :
    (after (exec (.modeMaintain 254 (.coded 8 [])) (withTransaction (.order orderEntry) .awaiting))).trunk.waiting
      = [⟨1, .reply 49 .aborted []⟩] := by decide +kernel

/-- R178: RESTART RUNTIME keeps the assets' configuration and clears the records. -/
theorem test_restart_runtime :
    let t := after (exec (.restartRuntime 1 (.coded 9 [])) county)
    t.records = [] ∧ t.mode = .run ∧ t.trunk.waiting = [⟨1, .notice (.start .runtime .run)⟩] := by decide +kernel

theorem test_restart_full :
    let t := after (exec (.restartFull 254 (.coded 9 [])) county)
    t.assets = [] ∧ t.mode = .maintain ∧ t.trunk.waiting = [⟨1, .notice (.start .full .maintain)⟩] := by decide +kernel

theorem test_power_on : after (exec .powerOn county) = State.reset := by decide +kernel

/-- R191: the reset input breaks off the frame in transmission, and nothing acts while it is held. -/
theorem test_reset_input :
    let t := after (exec .resetInputActive (after (exec .transmitBegin State.reset)))
    t.trunk.sending = none ∧ after (exec .secondTick t) = t := by decide +kernel

/-- R35: a DOWNLINK joins LU1's queue and no reply is sent yet. -/
theorem test_downlink :
    let t := after (exec (.downlink 1 (.tagged 49 [5, 7])) county)
    (t.line 0).queue = [orderEntry] ∧ t.trunk.waiting = [] := by decide +kernel

theorem test_resync :
    ((after (exec (.resync 1 (.tagged 9 [5])) county)).outstation? 5).map Outstation.fullDue = some true := by decide +kernel

/-- R198: 82 bytes of data, the first of them mode RUN. -/
theorem test_status :
    (answer (after (exec (.status 1 (.given 9)) county))).map (fun r => (r.2.length, r.2.head?))
      = some (82, some 2) := by decide +kernel

theorem test_status_clear :
    (after (exec (.statusClear 1 (.given 9)) { county with drops := 9 })).drops = 0 := by decide +kernel

theorem test_unknown_kind :
    answer (after (exec (.unknownKind 1 0x11 (.tagged 9 [])) county)) = some (.unknownKind, []) := by decide +kernel

theorem test_trunk_check_fail_saturates :
    (after (exec (.trunkCheckFail .checkMismatch)
      { county with trunk := { county.trunk with checkFails := 65535 } })).trunk.checkFails = 65535 := by decide +kernel

theorem test_trunk_frame_ignored : after (exec (.trunkFrameIgnored 2 0x24) county) = county := by decide +kernel

/-- R190: the START notice of power-on on the line: address 1, kind 0x40, header 0, cause 0, mode 0. -/
theorem test_transmit_begin :
    (after (exec .transmitBegin State.reset)).trunk.sending.map (fun x => x.bytes.take 7)
      = some [0x5A, 1, 0x40, 3, 0, 0, 0] := by decide +kernel

theorem test_transmit_complete :
    (after (exec .transmitComplete (after (exec .transmitBegin State.reset)))).trunk.occupancy = 0 := by decide +kernel

/-- R30, R29: an awaited TALLY is taken and ends the transaction; with nothing awaited it is a stray. -/
theorem test_tally :
    (after (exec (.tally 0 9 [1, 3, 3]) (withTransaction (.sweep false) .awaiting))).points.get? 5132
        = some (.status 300 .fail)
      ∧ ((after (exec (.tally 0 9 [1, 3, 3]) county)).line 0).counters.strays = 1 := by decide +kernel

/-- R36, log 11: a QUIET answers the ORDER awaited: DONE to its tag. -/
theorem test_quiet_answers_order :
    answer (after (exec (.quiet 0 9 []) (withTransaction (.order orderEntry) .awaiting))) = some (.done, []) := by
  decide +kernel

/-- R38: a field frame with a wrong check is counted. -/
theorem test_field_frame_discard :
    ((after (exec (.fieldFrameDiscard 0 [0x5A, 9, 0x12, 0, 0, 0]) county)).line 0).counters.checkErrors = 1 := by
  decide +kernel

/-- R37: the bytes of a frame are held until it is whole, behind a byte of noise. -/
theorem test_field_bytes_held :
    let s := withTransaction (.sweep false) .awaiting
    let t := after (exec (.fieldFrameDiscard 0 [0x00, 0x5A, 9, 0x12]) s)
    (t.line 0).received = [0x5A, 9, 0x12] ∧ t.fieldNext 0 ((frameBytes 9 0x12 []).drop 3) = (.quiet 0 9 [], []) := by
  decide +kernel

/-- R37: a frame half received as the part enters MAINTAIN is discarded, and bytes that come while HALTED are not kept. -/
theorem test_halted_line_keeps_no_bytes :
    let held := after (exec (.fieldFrameDiscard 0 [0x5A, 9]) county)
    let halted := after (exec (.modeMaintain 1 (.coded 8 [])) held)
    (held.line 0).received = [0x5A, 9] ∧ (halted.line 0).received = []
      ∧ ((after (exec (.fieldFrameDiscard 0 [0x5A, 9]) halted)).line 0).received = [] := by decide +kernel

theorem test_stray : ((after (exec (.stray 0 9 0x12 []) county)).line 0).counters.strays = 1 := by decide +kernel

/-- R27, R34: an ORDER first, then the SWEEP of the next outstation. -/
theorem test_poll_choose :
    let t := after (exec (.pollChoose 0) county)
    (t.line 0).transaction = some ⟨.sweep false, 5, .sending, none⟩ ∧ (t.line 0).pollPosition = some 5 := by decide +kernel

/-- R33: due once 300 s have passed since running second 100, and not a second before; the test is kept at second
ticks. -/
theorem test_exception_choose :
    let at_ (second : Nat) : State :=
      after (exec (.lineSecondWork 1) (owing county { second := second, runMinute := 6, dayMinute := none }))
    ((after (exec (.exceptionChoose 1) (at_ 39))).line 1).transaction = none
      ∧ ((after (exec (.exceptionChoose 1) (at_ 40))).line 1).transaction = some ⟨.check false, 33, .sending, none⟩ := by
  decide +kernel

theorem test_sweep_sent :
    ((after (exec (.sweepSent 0) (withTransaction (.sweep true) .sending))).line 0).transaction
      = some ⟨.sweep true, 5, .awaiting, some 50⟩ := by decide +kernel

theorem test_order_sent :
    ((after (exec (.orderSent 0) (withTransaction (.order orderEntry) .sending))).line 0).transaction
      = some ⟨.order orderEntry, 5, .awaiting, some 50⟩ := by decide +kernel

/-- Worked example of section 2.5: the first expiry sends the SWEEP again, the one at r = N2 silences. -/
theorem test_sweep_timeout :
    let s := withTransaction (.sweep false) .awaiting
    let last := s.adjustOutstation 5 fun x => { x with retry := 2 }
    ((after (exec (.sweepTimeout 0) s)).line 0).transaction = some ⟨.sweep false, 5, .resending, none⟩
      ∧ (after (exec (.sweepTimeout 0) last)).outstation? 5
        = some { station 9 (some 210) with comms := .silent, fullDue := true, countdown := 4 } := by decide +kernel

theorem test_order_timeout :
    answer (after (exec (.orderTimeout 0) (withTransaction (.order orderEntry) .awaiting))) = some (.noAnswer, []) := by
  decide +kernel

/-- R171: second 59 wraps into a minute; run-minute wraps after 4294967295, day-minute after 1439. -/
theorem test_second_tick :
    (after (exec .secondTick { county with time := { second := 59, runMinute := 4294967295, dayMinute := some 1439 } })).time
      = { second := 0, runMinute := 0, dayMinute := some 0 } := by decide +kernel

/-- R172: a tick hands its work on, which its row takes once. -/
theorem test_work_is_taken_once :
    let silent := county.adjustOutstation 33 fun x => { x with comms := .silent, countdown := 300 }
    let once := after (exec (.lineSecondWork 1) (after (exec .secondTick silent)))
    (once.outstation? 33).map Outstation.countdown = some 299 ∧ after (exec (.lineSecondWork 1) once) = once
      ∧ after (exec (.lineSecondWork 1) silent) = silent := by decide +kernel

theorem test_minute_tick :
    let t := after (exec .minuteTick county)
    t.time = { second := 0, runMinute := 1, dayMinute := none } ∧ t.owed = [.ranker, .windows, .storm] := by
  decide +kernel

/-- R173: a TIME after a tick finds its work done: the window of minute 15 closes with its count and without a gap, before
the TIME moves the day-minute and sets the gap flag. -/
theorem test_time_after_tick :
    let t := after (exec (.time 1 (.tagged 9 [0, 100, 0])) (owingClose county 15))
    t.time.dayMinute = some 100 ∧ t.owed = []
      ∧ (t.asset? 1500).bind (fun x => x.window) = some { count := 0, gap := true, last := some 100, result := .ok } := by
  decide +kernel

/-- R172, R88: the tick of minute 15 closes the window if it was taken in RUN, and leaves it open if it was taken in
MAINTAIN, whichever mode follows. -/
theorem test_mode_after_tick :
    let closed (s : State) : Option (Option (Option Nat)) :=
      (s.asset? 1500).map fun x => x.window.map Window.last
    closed (after (exec (.modeMaintain 1 (.coded 9 [])) (owingClose county 15))) = some (some (some 100))
      ∧ closed (after (exec (.modeRun 1 (.coded 9 [])) ((owingClose county 15).setMode .maintain)))
        = some (some none) := by decide +kernel

/-- R168: a count of 1 falls to 0 and takes the output with it while the source is false. -/
theorem test_beacon_stretch_tick :
    (after (exec (.beaconStretchTick 0) ((owing county county.time).setBeacons (county.beacons.set 0
      ⟨.storm, 0, .s5, false, true, 1, false⟩)))).beacon 0 = ⟨.storm, 0, .s5, false, false, 0, false⟩ := by decide +kernel

/-- Worked example of section 8.3: with E 3 and m 2, a step is taken and U rises by S. -/
theorem test_ranker_minute_event :
    let s := { owing county county.time with
      faultProfiles := county.faultProfiles.set 0 { FaultProfile.powerOn with interval := 3 }
      records := [(47, { cabinetRecord with minutes := 2 })] }
    ((after (exec .rankerMinuteEvent s)).records.get? 47).map (fun r => (r.steps, r.minutes, r.urgency, r.changeDue))
      = some (1, 0, 1072, false) := by decide +kernel

/-- R87, R88: at day-minute 15 a window of 15 minutes closes with its count. -/
theorem test_window_close_event :
    ((after (exec .windowCloseEvent (owing county { county.time with dayMinute := some 15 }))).asset? 1500).bind
      (fun x => x.window) = some { count := 0, gap := false, last := some 100, result := .ok } := by decide +kernel

/-- R162: the minute with 40 opens at Se 40 begins the storm, with its notice. -/
theorem test_storm_minute_event :
    (after (exec .stormMinuteEvent
      { owing county county.time with storm := { Storm.powerOn with entry := 40, opens := 40 } })).trunk.waiting
      = [⟨1, .notice (.storm true .entry 40)⟩] := by decide +kernel

theorem test_walk_begin :
    (after (exec .walkBegin { county with walkList := [⟨210, .absorb⟩] })).walk = some ⟨210, .absorb, some 47, []⟩ := by
  decide +kernel

/-- R132: an ABSORB visit of a FAULTY lamp not yet absorbed raises the root's n. -/
theorem test_absorb_visit :
    let s := (withWalk .absorb 210 (some 47)).adjustAsset 300 fun x => { x with absorbedBy := none }
    ((after (exec .absorbVisit s)).records.get? 47).map FaultRecord.absorbed = some 2
      ∧ (after (exec .absorbVisit s)).absorbedByOf 300 = some 210 := by decide +kernel

/-- R134: a RELEASE visit of a FAULTY lamp without a failed ancestor opens its fault. -/
theorem test_release_visit :
    let s := { (withWalk .release 210 none).adjustAsset 210 (fun x => { x with faultId := none, health := .healthy }) with
      records := [] }
    (after (exec .releaseVisit s)).faultIdOf 300 = some 48 := by decide +kernel

/-- R138: the rebuild's last visit enters RUN and sends the DONE owed. -/
theorem test_rebuild_visit :
    let s := { county with mode := .entering, rebuild := some ⟨some 301, some ⟨1, 49⟩⟩ }
    (after (exec .rebuildVisit s)).mode = .run ∧ answer (after (exec .rebuildVisit s)) = some (.done, []) := by decide +kernel

/-- Log 1: a step runs the command in front, and idles without one. -/
theorem test_step :
    (after (step (county.setPending [.minuteTick, .secondTick]))).pending = [.secondTick]
      ∧ after (step county) = county := by decide +kernel

/-! ## Witnesses: for each statement with hypotheses, states and operands that meet them, at the ends of their ranges -/

theorem witness_StepTakesFrontCommand :
    (county.setPending [.secondTick]).pending = .secondTick :: [] ∧ county.pending = [] := by decide +kernel

theorem witness_CommandsNotForThePart :
    (county.setResetHeld true).resetHeld = true ∧ Instr.secondTick ≠ .powerOn ∧ Instr.secondTick ≠ .resetInputActive
      ∧ frameOf (.list 2 .empty) = some ⟨2, 0x24, []⟩ ∧ county.isOwn 2 = false ∧ (2 : Byte) ≠ groupAddress
      ∧ frameOf (.list 254 .empty) = some ⟨254, 0x24, []⟩ ∧ county.isOwn 254 = false ∧ (0x24 : Byte) ∉ groupKinds
      ∧ county.Takes 1 := by decide +kernel

theorem witness_DirectiveFramesReadBack :
    (Instr.list 1 (.tagged 9 (List.replicate 249 0))).wf = true
      ∧ frameOf (.list 1 (.tagged 9 (List.replicate 249 0))) = some ⟨1, 0x24, 9 :: List.replicate 249 0⟩
      ∧ (Instr.list 1 (.tagged 9 (List.replicate 249 0))).namesItsRow = true
      ∧ (Instr.modeRun 1 (.codeUnknown 9)).wf = true
      ∧ frameOf (.modeRun 1 (.codeUnknown 9)) = some ⟨1, 0x29, [9, 0xFF]⟩ := by decide +kernel

theorem witness_TrunkReceiverFindsFrames :
    startByte ∉ ([0x00, 0xFF] : List Byte) ∧ (List.replicate 250 (0 : Byte)).length ≤ 250 ∧ 250 < (251 : Byte).toNat
      ∧ ([0, 0] : List Byte) ≠ beWord (crc16 (1 :: 0x24 :: BitVec.ofNat 8 1 :: [9])) ∧ county.resetHeld = false := by
  decide +kernel

theorem witness_EarlyRefusals :
    (county.setMode .entering).Takes 1 ∧ (county.setMode .entering).mode = .entering ∧ county.Takes 1
      ∧ county.mode ≠ .entering ∧ CodedRequest.empty.named = false ∧ (CodedRequest.codeUnknown 9).named = false
      ∧ (StatusRequest.optionMissing 9).named = false ∧ county.resetHeld = false ∧ county.isOwn groupAddress = false := by
  decide +kernel

theorem witness_ReadsReportEntries :
    county.Takes 1 ∧ (127 : Byte).toNat ≤ 127 ∧ 127 < (128 : Byte).toNat := by decide +kernel

theorem witness_PartAndStormEdits :
    quietPart.Takes 1 ∧ quietPart.mode ≠ .entering ∧ county.Takes 1 ∧ county.mode ≠ .entering := by decide +kernel

theorem witness_LineEdits :
    quietPart.Takes 1 ∧ quietPart.mode ≠ .entering ∧ ([] : List Byte).length < 1
      ∧ ¬(1 ≤ byteAt [5] 0 ∧ byteAt [5] 0 ≤ 4) ∧ ¬(1 ≤ byteAt [0] 0 ∧ byteAt [0] 0 ≤ 4)
      ∧ byteAt [4, 3] 0 = (3 : Fin 4).val + 1 ∧ [4, 3].length < 8 ∧ 2 < byteAt [4, 3] 1
      ∧ byteAt [1, 2, 0, 9, 99, 0, 5, 3] 0 = (0 : Fin 4).val + 1 ∧ 8 ≤ [1, 2, 0, 9, 99, 0, 5, 3].length
      ∧ byteAt [1, 2, 0, 9, 99, 0, 5, 3] 1 = Personality.exception.code := by decide +kernel

theorem witness_OutstationEdits :
    quietPart.Takes 1 ∧ quietPart.mode ≠ .entering ∧ 127 < (128 : Byte).toNat ∧ (127 : Byte).toNat ≤ 127
      ∧ [0, 0, 0].length < 4 ∧ ¬(1 ≤ (0 : Byte).toNat ∧ (0 : Byte).toNat ≤ 250) ∧ 2 < (3 : Byte).toNat
      ∧ ¬(1 ≤ (251 : Byte).toNat ∧ (251 : Byte).toNat ≤ 250) ∧ 1 ≤ (250 : Byte).toNat ∧ (250 : Byte).toNat ≤ 250
      ∧ (2 : Byte).toNat = RelayPolicy.none.code
      ∧ (some 210 : Option Nat) = (if 256 * (0 : Byte).toNat + (210 : Byte).toNat = 0xFFFF then none
          else some (256 * (0 : Byte).toNat + (210 : Byte).toNat)) := by decide +kernel

theorem witness_AssetLoadChecks :
    quietPart.Takes 1 ∧ quietPart.mode ≠ .entering ∧ 2047 = 256 * (7 : Byte).toNat + (255 : Byte).toNat
      ∧ 2048 = 256 * (8 : Byte).toNat + (0 : Byte).toNat ∧ 65535 = 256 * (255 : Byte).toNat + (255 : Byte).toNat
      ∧ 2047 < 2048 ∧ 2047 ≤ 2047 ∧ [0, 0, 0, 0, 0].length < 6 ∧ 5 < (6 : Byte).toNat ∧ 15 < (16 : Byte).toNat
      ∧ (2048 ≠ 0xFFFF ∧ 2047 < 2048) ∧ ((4 : Byte) = 4 ∧ 7 < (8 : Byte).toNat) ∧ ((3 : Byte) ≠ 4 ∧ (0 : Byte) ≠ 0xFF)
      ∧ (4 : Byte).toNat = Kind.loop.code ∧ (15 : Byte).toNat = (15 : Fin 16).val
      ∧ (none : Option Nat) = (if 65535 = 0xFFFF then none else some 65535) ∧ 1 = max 1 (0 : Byte).toNat
      ∧ (some (7 : Fin 8)).map Fin.val = (if (7 : Byte) = 0xFF then none else some (7 : Byte).toNat)
      ∧ (Kind.loop = .loop ↔ (some (7 : Fin 8)) ≠ none) := by decide +kernel

theorem witness_AssetLoadCreates : county.asset? 1502 = none := by decide +kernel

/-- The county meets the laws of Safety. -/
theorem county_meets_laws :
    county.Canonical ∧ county.TablesSound ∧ county.FaultLaw ∧ county.UrgencyLaw ∧ county.TreeLaw
      ∧ county.IntegratorsBounded := by
  simp only [State.FaultLaw, State.AssetLaw]
  decide +kernel

/-- The county has every field in range, whatever minute and second its ticks left. -/
theorem county_in_range : county.InRange := by
  unfold State.InRange State.UnitsInRange State.TablesInRange
  refine ⟨?_, ?_⟩ <;> repeat' (first | apply And.intro | decide +kernel)

theorem witness_AssetLoadReplaces :
    county.Canonical ∧ county.FaultLaw ∧ county.UrgencyLaw ∧ county.IntegratorsBounded
      ∧ county.asset? 1500 = some (loopAsset (loopWindow 100 false))
      ∧ ((loopAsset (loopWindow 100 false)).window ≠ none ↔ (loopAsset (loopWindow 100 false)).config.kind = .loop)
      ∧ (Kind.loop = Kind.loop ∧ (none : Option Nat) = none) := by
  exact ⟨county_meets_laws.1, county_meets_laws.2.2.1, county_meets_laws.2.2.2.1, county_meets_laws.2.2.2.2.2, by
    decide +kernel⟩

theorem witness_AssetErases :
    county.Takes 1 ∧ county.mode ≠ .entering ∧ 210 = 256 * (0 : Byte).toNat + (210 : Byte).toNat := by decide +kernel

theorem witness_PointEdits :
    county.Takes 1 ∧ county.mode ≠ .entering ∧ 1023 = 256 * (3 : Byte).toNat + (255 : Byte).toNat
      ∧ 2047 = 256 * (7 : Byte).toNat + (255 : Byte).toNat ∧ 131071 = 1024 * (127 : Byte).toNat + 1023
      ∧ 127 < (128 : Byte).toNat ∧ (2 ≤ [4, 0].length ∧ 1023 < wordAt [4, 0] 0) ∧ (127 : Byte).toNat ≤ 127
      ∧ [3].length < 2 ∧ 1023 ≤ 1023 ∧ [7, 255].length < 3 := by decide +kernel

theorem witness_FaultProfileEdits :
    quietPart.Takes 1 ∧ quietPart.mode ≠ .entering ∧ ([] : List Byte).length < 1 ∧ 15 < byteAt [16] 0
      ∧ byteAt [15] 0 = (15 : Fin 16).val ∧ byteAt [0] 0 = (0 : Fin 16).val ∧ 1 ≤ [15].length := by decide +kernel

theorem witness_LoopProfileEdits :
    quietPart.Takes 1 ∧ quietPart.mode ≠ .entering ∧ ([] : List Byte).length < 1 ∧ 7 < byteAt [8] 0
      ∧ byteAt [7] 0 = (7 : Fin 8).val ∧ byteAt [0] 0 = (0 : Fin 8).val ∧ 1 ≤ [7].length := by decide +kernel

theorem witness_BeaconEdits :
    county.Takes 1 ∧ county.mode ≠ .entering ∧ 1 ≤ [4, 6, 0, 4, 7].length ∧ byteAt [4, 6, 0, 4, 7] 0 = (3 : Fin 4).val + 1
      ∧ 5 ≤ [4, 6, 0, 4, 7].length ∧ byteAt [4, 6, 0, 4, 7] 1 = BeaconSource.lineSilent.code
      ∧ byteAt [4, 6, 0, 4, 7] 4 = Stretch.latched.code ∧ 1 ≤ wordAt [4, 6, 0, 4, 7] 2 ∧ wordAt [4, 6, 0, 4, 7] 2 ≤ 4
      ∧ [1, 0, 0, 0].length < 5 ∧ 6 < byteAt [1, 7] 1 ∧ 7 < byteAt [1, 0, 0, 0, 8] 4
      ∧ (byteAt [1, 6, 0, 5, 0] 1 = 6 ∧ ¬(1 ≤ wordAt [1, 6, 0, 5, 0] 2 ∧ wordAt [1, 6, 0, 5, 0] 2 ≤ 4))
      ∧ ([] : List Byte).length < 1 ∧ ¬(1 ≤ byteAt [0] 0 ∧ byteAt [0] 0 ≤ 4) ∧ ¬(1 ≤ byteAt [5] 0 ∧ byteAt [5] 0 ≤ 4) := by
  decide +kernel

theorem witness_BeaconsFollowSources :
    let lit (v : Bool) (out : Bool) : State := county.setBeacons (county.beacons.set 0
      ⟨.on, 0, .s60, v, out, if out then 61 else 0, false⟩)
    ((lit true true).beacon 0).InRange ∧ ((lit false true).beacon 0).InRange ∧ ((lit false false).beacon 0).InRange
      ∧ (∀ b : Fin 4, (county.beacon b).value = county.sourceValue (county.beacon b).source (county.beacon b).argument)
      ∧ ∃ t : State, exec .secondTick county = .next t :=
  ⟨by decide +kernel, by decide +kernel, by decide +kernel, by decide +kernel, _, rfl⟩

theorem witness_ListReportsRanks : county.Takes 1 := by decide +kernel

theorem witness_DispatchQueueOrdered : county.Canonical ∧ (47, cabinetRecord) ∈ county.records := by decide +kernel

theorem witness_AckAcknowledges : county.Takes 1 ∧ county.mode ≠ .entering := by decide +kernel

theorem witness_CloseRemovesRecord : county.Takes 1 ∧ county.mode ≠ .entering := by decide +kernel

theorem witness_TimeSetsClock :
    let late := county.setTime { county.time with second := 59 }
    county.resetHeld = false ∧ county.isOwn 1 = true ∧ (254 : Byte) = groupAddress ∧ [5, 159].length < 3
      ∧ 1439 < wordAt [5, 160, 0] 0 ∧ 59 < byteAt [5, 159, 60] 2 ∧ 3 ≤ [5, 159, 58].length ∧ wordAt [5, 159, 58] 0 ≤ 1439
      ∧ byteAt [5, 159, 59] 2 ≤ 59 ∧ late.owed = [] ∧ late.time.second ≤ byteAt [5, 159, 59] 2 ∧ byteAt [5, 159, 58] 2 < late.time.second := by
  decide +kernel

theorem witness_ModeRunBegins :
    county.resetHeld = false ∧ (county.isOwn 1 = true ∨ (1 : Byte) = groupAddress)
      ∧ (county.isOwn 254 = true ∨ (254 : Byte) = groupAddress) ∧ (county.setMode .entering).mode = .entering
      ∧ county.mode = .run ∧ (county.setMode .maintain).mode = .maintain ∧ (county.setMode .maintain).roots ≠ []
      ∧ county.owed = [] ∧ quietPart.mode = .maintain ∧ quietPart.owed = [] ∧ quietPart.assets = [] := by decide +kernel

theorem witness_ModeMaintainLeavesRun :
    county.resetHeld = false ∧ (county.isOwn 1 = true ∨ (1 : Byte) = groupAddress)
      ∧ (county.setMode .entering).mode = .entering ∧ quietPart.mode = .maintain
      ∧ (withTransaction (.order orderEntry) .awaiting).mode = .run
      ∧ (withTransaction (.order orderEntry) .awaiting).owed = [] := by decide +kernel

theorem witness_RestartRuntimeKeepsTables :
    county.resetHeld = false ∧ (county.isOwn 254 = true ∨ (254 : Byte) = groupAddress) := by decide +kernel

theorem witness_PowerOnAndRestartFull :
    county.resetHeld = false ∧ (county.isOwn 1 = true ∨ (1 : Byte) = groupAddress) := by decide +kernel

theorem witness_DownlinkAndResync :
    county.Takes 1 ∧ county.mode ≠ .entering ∧ 127 < (128 : Byte).toNat ∧ (127 : Byte).toNat ≤ 127
      ∧ (127 : Byte).toNat / 32 = (3 : Fin 4).val ∧ (5 : Byte).toNat / 32 = (0 : Fin 4).val := by decide +kernel

theorem witness_StatusReports : county.Takes 1 := by decide +kernel

theorem witness_TransmitterStampsHeader :
    State.reset.resetHeld = false ∧ State.reset.trunk.sending = none
      ∧ State.reset.trunk.waiting = ⟨1, .notice (.start .powerOn .maintain)⟩ :: [] ∧ quietPart.trunk.waiting = []
      ∧ (after (exec .transmitBegin State.reset)).trunk.sending ≠ none ∧ (county.line 0).transaction = none
      ∧ ((withTransaction (.sweep true) .sending).line 0).transaction = some ⟨.sweep true, 5, .sending, none⟩
      ∧ Phase.sending ≠ .awaiting ∧ (withTransaction (.sweep true) .sending).outstation? 5 = some (station 9 (some 210)) := by
  decide +kernel

theorem witness_TransmitDiscardRule :
    let fault : TrunkFrame := ⟨1, .notice (.cleared 1 1 false)⟩
    let relay : TrunkFrame := ⟨1, .notice (.relay 5 [])⟩
    let full : Trunk := { quietPart.trunk with waiting := List.replicate 63 fault ++ relay :: [] }
    quietPart.trunk.occupancy < 64 ∧ 64 ≤ full.occupancy ∧ full.waiting = List.replicate 63 fault ++ relay :: []
      ∧ (∀ h ∈ List.replicate 63 fault, relay.body.rank ≤ h.body.rank)
      ∧ (∀ h ∈ ([] : List TrunkFrame), relay.body.rank < h.body.rank)
      ∧ ∀ (o : Nat) (rs : List PointRecord), Notice.cleared 1 1 false ≠ .relay o rs :=
  ⟨by decide +kernel, by decide +kernel, rfl, by decide +kernel, by decide +kernel, nofun⟩

/-- One record of point 12 FAIL, as a TALLY payload. -/
def oneRecord : PointRecord := ⟨0x0303, none⟩

theorem witness_AnswerTaken :
    let s := withTransaction (.sweep true) .awaiting
    (s.TablesSound ∧ s.resetHeld = false ∧ s.mode = .run ∧ (s.line 0).settings.personality ≠ .off
      ∧ [(1 : Byte), 3, 3].length + 6 ≤ (s.line 0).settings.fmax
      ∧ (Instr.tally 0 9 [1, 3, 3] = .tally 0 9 [1, 3, 3] ∧ [(1 : Byte), 3, 3] = 1 :: [3, 3] ∧ (1 : Byte).toNat ≤ 24
        ∧ readRecords (1 : Byte).toNat [3, 3] = some [oneRecord])
      ∧ (5, station 9 (some 210)) ∈ s.outstations ∧ 5 / 32 = (0 : Fin 4).val
      ∧ (station 9 (some 210)).config.address = (9 : Byte).toNat
      ∧ some (⟨.sweep true, 5, .awaiting, none⟩ : Transaction)
        = (s.line 0).transaction.filter (fun t => t.outstation = 5 ∧ t.phase ≠ .sending)
      ∧ some (⟨.sweep true, 5, .awaiting, none⟩ : Transaction) ≠ none ∧ [210, 300].Pairwise (· < ·))
      ∧ ∀ a : Nat, a ∈ [210, 300] ↔ s.asset? a ≠ none ∧ ((station 9 (some 210)).config.link = some a
        ∨ ∃ e ∈ (s.applyRecord 5 oneRecord).points, e.1 / 1024 = 5 ∧ e.2.statusAsset = some a) := by
  refine ⟨by decide +kernel, fun a => ?_⟩
  have points : ((withTransaction (.sweep true) .awaiting).applyRecord 5 oneRecord).points
      = [(5132, .status 300 .fail), (5133, .count 1500 (some 400)), (5140, .pending .degraded none)] := by decide +kernel
  have cabinet : (withTransaction (.sweep true) .awaiting).asset? 210 ≠ none := by decide +kernel
  have lamp : (withTransaction (.sweep true) .awaiting).asset? 300 ≠ none := by decide +kernel
  constructor
  · rintro h
    obtain rfl | rfl : a = 210 ∨ a = 300 := by simpa using h
    · exact ⟨cabinet, .inl rfl⟩
    · exact ⟨lamp, .inr ⟨(5132, .status 300 .fail), by simp [points], rfl, rfl⟩⟩
  · rintro ⟨-, h⟩
    simp [points, station, Point.statusAsset] at h
    simp; omega

theorem witness_TallyRecordsApply :
    let full : State := county.setPoints ((List.range 256).map fun i => (i, .pending .ok none))
    (0x01 : Byte).getLsbD 2 = false ∧ (0x44 : Byte).getLsbD 2 = true
      ∧ 5132 = 1024 * 5 + (⟨0x0303, none⟩ : PointRecord).code ∧ county.points.get? 5132 = some (.status 300 .ok)
      ∧ 5140 = 1024 * 5 + (⟨0x0503, none⟩ : PointRecord).code ∧ county.points.get? 5140 = some (.pending .degraded none)
      ∧ 5133 = 1024 * 5 + (⟨0x0344, some 460⟩ : PointRecord).code ∧ county.points.get? 5133 = some (.count 1500 (some 400))
      ∧ (⟨0x0344, some 460⟩ : PointRecord).count = some 460 ∧ (⟨0x0340, none⟩ : PointRecord).count = none
      ∧ 6143 = 1024 * 5 + (⟨0xFFC3, none⟩ : PointRecord).code ∧ county.points.get? 6143 = none
      ∧ county.points.length < 4096 ∧ (county.points.filter fun e => !e.2.resolved).length < 256
      ∧ full.points.get? 6143 = none ∧ 256 ≤ (full.points.filter fun e => !e.2.resolved).length := by decide +kernel

theorem witness_FieldFramesDiscarded :
    let off := county.setLines quietPart.lines
    let held := county.setReceived 0 [startByte]
    county.resetHeld = false ∧ (off.line 0).settings.personality = .off ∧ (county.line 0).settings.personality ≠ .off
      ∧ county.mode = .run ∧ 16 ≤ (county.line 0).settings.fmax ∧ (county.line 0).settings.fmax < (123 : Byte).toNat + 6
      ∧ (county.line 0).settings.fmax < (List.replicate 123 (0 : Byte)).length + 6
      ∧ (List.replicate 122 (0 : Byte)).length + 6 ≤ (county.line 0).settings.fmax
      ∧ ([0, 0] : List Byte) ≠ beWord (crc16 (9 :: 0x12 :: BitVec.ofNat 8 0 :: []))
      ∧ (0x10 : Byte) ≠ 0x11 ∧ (0x10 : Byte) ≠ 0x12 ∧ 24 < (25 : Byte).toNat
      ∧ (24 : Byte).toNat ≤ 24 ∧ readRecords (24 : Byte).toNat [] = none ∧ readRecords (0 : Byte).toNat [] ≠ none
      ∧ (∀ e ∈ county.outstations, e.1 / 32 = (0 : Fin 4).val → e.2.config.address ≠ (10 : Byte).toNat)
      ∧ county.TablesSound ∧ (county.line 0).settings.personality = .polled
      ∧ (5, station 9 (some 210)) ∈ county.outstations ∧ 5 / 32 = (0 : Fin 4).val
      ∧ (station 9 (some 210)).config.address = (9 : Byte).toNat
      ∧ (∀ t ∈ (county.line 0).transaction, t.outstation = 5 → t.phase = .sending)
      ∧ startByte ∉ ([0, 1] : List Byte) ∧ (held.line 0).settings.personality ≠ .off ∧ held.mode = .run
      ∧ (held.line 0).received ++ [9, 0x12] = [] ++ startByte :: [9, 0x12] ∧ [(9 : Byte), 0x12].length < 3
      ∧ (held.line 0).received ++ [9, 0x12, 0, 0] = [] ++ startByte :: 9 :: 0x12 :: 0 :: [0]
      ∧ (0 : Byte).toNat + 6 ≤ (held.line 0).settings.fmax ∧ [(0 : Byte)].length < (0 : Byte).toNat + 2
      ∧ (held.line 0).received ++ [9, 0x12, 123, 7] = [] ++ startByte :: 9 :: 0x12 :: 123 :: [7]
      ∧ (held.line 0).received ++ [9, 0x12, 0, 0, 0]
        = [] ++ startByte :: 9 :: 0x12 :: BitVec.ofNat 8 ([] : List Byte).length :: [] ++ 0 :: 0 :: []
      ∧ (held.line 0).received ++ (frameBytes 9 0x12 []).tail ++ [1] = [] ++ frameBytes 9 0x12 [] ++ [1]
      ∧ (county.line 0).received ++ [0, 1] = [0, 1] := by decide +kernel

/-- LU1 with one downlink entry waiting, under a given previous transaction. -/
def withQueue (k : Fin 4) (p : Personality) (previous : Option Previous) : State :=
  county.setLines (county.lines.set k.val { lineOfKind p with queue := [orderEntry], previous := previous } k.isLt)

theorem witness_PollChoose :
    let silent (n : Nat) : Outstation := { station 9 (some 210) with comms := .silent, countdown := n }
    let swept := county.setPollPosition 0 5
    county.TablesSound ∧ county.resetHeld = false ∧ (withTransaction (.sweep true) .sending).TablesSound
      ∧ ((withTransaction (.sweep true) .sending).line 0).transaction ≠ none
      ∧ (county.line 0).settings.personality = .polled ∧ county.mode = .run ∧ (county.line 0).transaction = none
      ∧ ((withQueue 0 .polled none).line 0).queue = orderEntry :: [] ∧ ((withQueue 0 .polled none).line 0).previous ≠ some .order
      ∧ ((withQueue 0 .polled (some .order)).line 0).previous = some .order ∧ (county.line 0).queue = []
      ∧ (∀ e ∈ (county.setOutstations []).outstations, e.1 / 32 ≠ (0 : Fin 4).val)
      ∧ (5, station 9 (some 210)) ∈ county.outstations ∧ 5 / 32 = (0 : Fin 4).val
      ∧ (swept.line 0).pollPosition.bind swept.outstation? = some (station 9 (some 210))
      ∧ (∀ e ∈ swept.outstations, e.1 / 32 = (0 : Fin 4).val → e.2.config.address ≤ (station 9 (some 210)).config.address)
      ∧ (county.line 0).pollPosition = none
      ∧ (∀ e ∈ county.outstations, e.1 / 32 = (0 : Fin 4).val → (station 9 (some 210)).config.address ≤ e.2.config.address)
      ∧ (station 9 (some 210)).comms ≠ .silent ∧ ((silent 1).comms = .silent ∧ (silent 1).countdown ≤ 1)
      ∧ 1 < (silent 2).countdown := by decide +kernel

theorem witness_ExceptionChoose :
    let due := county.adjustOutstation 33 fun x => { x with fullDue := true }
    county.TablesSound ∧ county.resetHeld = false ∧ (county.line 0).settings.personality ≠ .exception
      ∧ (county.line 1).settings.personality = .exception ∧ county.mode = .run ∧ (county.line 1).transaction = none
      ∧ (county.line 1).queue = []
      ∧ (∀ e ∈ county.outstations, e.1 / 32 = (1 : Fin 4).val → ¬(e.2.fullDue = true
        ∨ (e.2.comms ≠ .silent ∧ e.2.integrityDue = true)
        ∨ (e.2.comms = .silent ∧ e.2.countdown = 0)))
      ∧ ((withQueue 1 .exception none).line 1).queue = orderEntry :: []
      ∧ ((withQueue 1 .exception none).line 1).previous ≠ some .order
      ∧ (33, { station 3 none with fullDue := true }) ∈ due.outstations ∧ 33 / 32 = (1 : Fin 4).val
      ∧ (∀ e ∈ due.outstations, e.1 / 32 = (1 : Fin 4).val → (station 3 none).config.address ≤ e.2.config.address) := by
  decide +kernel

theorem witness_TransactionTimers :
    let sweep := withTransaction (.sweep true) .sending
    let awaited := withTransaction (.sweep true) .awaiting
    let order := withTransaction (.order orderEntry) .awaiting
    county.resetHeld = false ∧ (county.setMode .maintain).mode ≠ .run
      ∧ (sweep.line 0).transaction = some ⟨.sweep true, 5, .sending, none⟩ ∧ (TransactionKind.sweep true).isSweep = true
      ∧ (TransactionKind.order orderEntry).isSweep = false ∧ sweep.mode = .run ∧ Phase.sending ≠ .awaiting
      ∧ Phase.resending ≠ .awaiting ∧ (county.line 0).transaction = none
      ∧ (∃ t ∈ (awaited.line 0).transaction, t.phase = .awaiting) ∧ (∃ t ∈ (sweep.line 0).transaction, t.phase ≠ .awaiting)
      ∧ (awaited.line 0).settings.personality ≠ .off ∧ (awaited.line 0).transaction = some ⟨.sweep true, 5, .awaiting, none⟩
      ∧ awaited.outstation? 5 = some (station 9 (some 210)) ∧ (station 9 (some 210)).retry < (awaited.line 0).settings.n2
      ∧ order.mode = .run ∧ (order.line 0).settings.personality ≠ .off
      ∧ (order.line 0).transaction = some ⟨.order orderEntry, 5, .awaiting, none⟩ := by
  decide +kernel

theorem witness_SweepFailureSilences :
    let x : Outstation := { station 9 (some 210) with retry := 2 }
    let s := (withTransaction (.sweep true) .awaiting).adjustOutstation 5 fun x => { x with retry := 2 }
    s.Canonical ∧ s.resetHeld = false ∧ s.mode = .run ∧ (s.line 0).settings.personality ≠ .off
      ∧ (s.line 0).transaction = some ⟨.sweep true, 5, .awaiting, none⟩ ∧ (TransactionKind.sweep true).isSweep = true
      ∧ s.outstation? 5 = some x ∧ (s.line 0).settings.n2 ≤ x.retry := by decide +kernel

theorem witness_TicksAdvance :
    let last := county.setTime { county.time with second := 59 }
    let owed := owing county county.time
    county.resetHeld = false ∧ county.time.second < 59 ∧ 59 ≤ last.time.second ∧ county.owed = [] ∧ last.owed = []
      ∧ owed.owed ≠ [] ∧ .line 0 ∉ county.owed ∧ .beacon 0 ∉ county.owed ∧ .line 3 ∈ owed.owed
      ∧ .beacon 3 ∈ owed.owed := by decide +kernel

theorem witness_RankerMinute :
    county.Canonical ∧ county.resetHeld = false ∧ .ranker ∉ county.owed
      ∧ .ranker ∈ (owing county county.time).owed := by decide +kernel

/-- The county with a minute tick owed at the given day-minute. -/
def closing (dayMinute : Option Nat) : State := owing county { county.time with dayMinute := dayMinute }

theorem witness_WindowsCloseAndAreJudged :
    ((closing none).Canonical ∧ (closing none).resetHeld = false ∧ (∀ p : Fin 8, ((closing none).loopProfile p).InRange)
      ∧ .windows ∉ county.owed ∧ .windows ∈ (closing none).owed ∧ (closing none).time.dayMinute = none
      ∧ .windows ∈ (closing (some 0)).owed ∧ (closing (some 0)).mode = .run
      ∧ (closing (some 0)).time.dayMinute = some 0 ∧ .windows ∈ (closing (some 1439)).owed
      ∧ (closing (some 1439)).mode = .run ∧ (closing (some 1439)).time.dayMinute = some 1439
      ∧ [1500].Pairwise (· < ·))
      ∧ (∀ a : Nat, a ∈ [1500] ↔ ∃ (x : Asset) (p : Fin 8), (closing (some 0)).asset? a = some x ∧ x.window ≠ none
          ∧ x.config.loopProfile = some p ∧ 0 % ((closing (some 0)).loopProfile p).length = 0)
      ∧ ∀ a : Nat, a ∈ ([] : List Nat) ↔ ∃ (x : Asset) (p : Fin 8), (closing (some 1439)).asset? a = some x
          ∧ x.window ≠ none ∧ x.config.loopProfile = some p
          ∧ 1439 % ((closing (some 1439)).loopProfile p).length = 0 := by
  refine ⟨by decide +kernel, fun a => ⟨fun h => ?_, fun ⟨x, p, present, window, _, _⟩ => ?_⟩,
    fun a => ⟨nofun, fun ⟨x, p, _, _, _, divides⟩ => ?_⟩⟩
  · obtain rfl : a = 1500 := by simpa using h
    exact ⟨loopAsset (loopWindow 100 false), 0, by decide +kernel⟩
  · have loops : ∀ e ∈ county.assets, e.2.window ≠ none → e.1 = 1500 := by decide +kernel
    simpa using loops (a, x) (Table.mem_of_get? present) window
  · have lengths : ∀ p : Fin 8, 1439 % ((closing (some 1439)).loopProfile p).length ≠ 0 := by decide +kernel
    exact absurd divides (lengths p)

theorem witness_StormMinute :
    county.resetHeld = false ∧ (county.storm.on = false → county.storm.calm = 0)
      ∧ ((⟨0, 0, 60, true, 59, 65535⟩ : Storm).on = false → (⟨0, 0, 60, true, 59, 65535⟩ : Storm).calm = 0)
      ∧ .storm ∉ county.owed ∧ .storm ∈ (owing county county.time).owed := by decide +kernel

theorem witness_WalkBegins :
    let s := county.setWalkList [⟨210, .absorb⟩, ⟨1500, .release⟩]
    (∀ e ∈ ([⟨210, .absorb⟩] : List WalkEntry), e.root ≠ 1500)
      ∧ (∀ e ∈ ([⟨210, .absorb⟩] ++ [⟨7, .release⟩] : List WalkEntry), e.root ≠ 1500)
      ∧ county.resetHeld = false ∧ county.walkList = [] ∧ s.mode = .run ∧ s.walk = none
      ∧ s.walkList = ⟨210, .absorb⟩ :: [⟨1500, .release⟩] := by decide +kernel

theorem witness_WalkVisitsInPreorder : county.Canonical ∧ county.TreeLaw := by
  exact ⟨county_meets_laws.1, county_meets_laws.2.2.2.2.1⟩

/-- The cabinet's record while it counts no descendant. -/
def uncounted : FaultRecord := { cabinetRecord with absorbed := 0, urgency := 1024 }

/-- The county with lamp 300 not yet absorbed, holding record 46, and an ABSORB walk of 210 in flight. -/
def absorbing : State :=
  { (withWalk .absorb 210 (some 47)).adjustAsset 300
      (fun x => { x with absorbedBy := none, faultId := some 46 }) with
    records := [(46, { uncounted with asset := 300 }), (47, uncounted)] }

theorem absorbing_meets_laws : absorbing.Canonical ∧ absorbing.FaultLaw ∧ absorbing.TreeLaw ∧ absorbing.UrgencyLaw := by
  refine ⟨by decide +kernel, ?_, by decide +kernel, by decide +kernel⟩
  simp only [State.FaultLaw, State.AssetLaw]
  decide +kernel

/-- The county with an ABSORB walk of 210 in flight that finds lamp 300 naming another absorber, and lamp 301 HEALTHY and
naming none. -/
def moving : State :=
  ((withWalk .absorb 210 (some 47)).adjustAsset 300 fun x => { x with absorbedBy := some 1500 }).adjustAsset 301
    fun x => { x with absorbedBy := none }

theorem moving_meets_laws : moving.Canonical ∧ moving.FaultLaw ∧ moving.TreeLaw := by
  refine ⟨by decide +kernel, ?_, by decide +kernel⟩
  simp only [State.FaultLaw, State.AssetLaw]
  decide +kernel

/-- Cabinet `a` FAULTY under its own record. -/
def holder (a : Nat) : Asset :=
  { plainAsset .cabinet none with integrator := 12, health := .faulty .fail, faultId := some (a + 1) }

/-- Lamp 512 below cabinet 0, waiting for a record. -/
def waiter : Asset := { plainAsset .lamp (some 0) with health := .faulty .fail, waiting := true }

/-- A full fault table: cabinets 0..511 hold its records and lamp 512 waits, while an ABSORB walk of 0 is in flight. -/
def crowded : State :=
  { county with
    assets := (List.range 512).map (fun a => (a, holder a)) ++ [(512, waiter)]
    outstations := [], points := [], waiting := [512], walk := some ⟨0, .absorb, some 1, []⟩
    records := (List.range 512).map fun a => (a + 1, { uncounted with asset := a }) }

theorem crowded_canonical : crowded.Canonical := by
  refine ⟨?_, rfl, rfl, ?_⟩
  · simpa [crowded, Table.wf, Function.comp_def, List.pairwise_append] using List.pairwise_lt_range (n := 512)
  · simpa [crowded, Table.wf, Function.comp_def, List.map_map] using
      (List.pairwise_map.mpr (List.pairwise_lt_range.imp fun h => Nat.succ_lt_succ h) :
        ((List.range 512).map Nat.succ).Pairwise (· < ·))

theorem crowded_holder {a : Nat} (h : a < 512) : crowded.asset? a = some (holder a) :=
  Table.get?_of_mem crowded_canonical.1 (by simp [crowded, h])

theorem crowded_record {a : Nat} (h : a < 512) : crowded.records.get? (a + 1) = some { uncounted with asset := a } :=
  Table.get?_of_mem crowded_canonical.2.2.2 (by simp [crowded, h])

theorem crowded_meets_laws : crowded.FaultLaw ∧ crowded.TreeLaw := by
  have waits : crowded.asset? 512 = some waiter := Table.get?_of_mem crowded_canonical.1 (by simp [crowded])
  have members : ∀ e ∈ crowded.assets, (∃ a < 512, e = (a, holder a)) ∨ e = (512, waiter) := by
    simp [crowded, eq_comm]
  refine ⟨⟨by simp [crowded], ?_, ?_, by decide, ?_, by simp [crowded], by decide, by decide⟩, ?_⟩
  · rintro ⟨id, r⟩ h
    obtain ⟨a, ha, rfl, rfl⟩ : ∃ a < 512, a + 1 = id ∧ { uncounted with asset := a } = r := by simpa [crowded] using h
    exact ⟨by simp, by simp; omega, holder a, crowded_holder ha, rfl⟩
  · intro e h
    obtain ⟨a, ha, rfl⟩ | rfl := members e h
    · refine ⟨?_, nofun, ⟨nofun, fun h => ?_⟩, fun _ => .inl nofun⟩
      · rintro id ⟨⟩
        exact ⟨rfl, rfl, _, crowded_record ha, rfl, rfl⟩
      · obtain rfl : a = 512 := by simpa [crowded] using h
        omega
    · exact ⟨nofun, fun _ => ⟨nofun, rfl, rfl⟩, ⟨fun _ => by simp [crowded], fun _ => rfl⟩, fun _ => .inr (.inr rfl)⟩
  · intro a h
    obtain rfl : a = 512 := by simpa [crowded] using h
    simp [waits]
  · intro e h
    obtain ⟨a, ha, rfl⟩ | rfl := members e h
    · refine ⟨nofun, ?_⟩
      simp [State.depthOf, State.ancestorsOf, ancestorsUpTo, State.parentOf, crowded_holder ha, holder, plainAsset]
    · refine ⟨fun p hp => ?_, ?_⟩
      · obtain rfl : 0 = p := by simpa [waiter, plainAsset] using hp
        simp [crowded_holder]
      · simp [State.depthOf, State.ancestorsOf, ancestorsUpTo, State.parentOf, crowded_holder, waits, holder, waiter,
          plainAsset, Config.maxDepth]

theorem witness_AbsorbVisit :
    (absorbing.Canonical ∧ absorbing.FaultLaw ∧ absorbing.TreeLaw)
      ∧ absorbing.resetHeld = false ∧ absorbing.mode = .run ∧ absorbing.walk = some ⟨210, .absorb, some 47, []⟩
      ∧ absorbing.faultIdOf 210 = some 47 ∧ nextCursor absorbing 210 [] = some [300] ∧ [300].getLast? = some 300
      ∧ (absorbing.asset? 300).map (fun x => (x.faultId, x.absorbedBy)) = some (some 46, none)
      ∧ nextCursor absorbing 210 [301] = none
      ∧ (county.asset? 300).map Asset.absorbedBy = some (some 210)
      ∧ (moving.asset? 300).map (fun x => (x.health, x.absorbedBy)) = some (.faulty .fail, some 1500)
      ∧ nextCursor moving 210 [300] = some [301]
      ∧ (moving.asset? 301).map (fun x => (x.health, x.absorbedBy)) = some (.healthy, none)
      ∧ crowded.resetHeld = false ∧ crowded.mode = .run ∧ crowded.faultIdOf 0 = some 1
      ∧ nextCursor crowded 0 [] = some [512] ∧ (crowded.asset? 512).map Asset.waiting = some true :=
  ⟨⟨absorbing_meets_laws.1, absorbing_meets_laws.2.1, absorbing_meets_laws.2.2.1⟩, by decide +kernel⟩

/-- The county without its record: cabinet 210 HEALTHY, lamp 300 still naming it, and a RELEASE walk of it in flight. -/
def releasing : State :=
  { (withWalk .release 210 none).adjustAsset 210 (fun x => { x with faultId := none, health := .healthy }) with
    records := [] }

theorem releasing_meets_laws : releasing.Canonical ∧ releasing.FaultLaw ∧ releasing.TreeLaw := by
  refine ⟨by decide +kernel, ?_, by decide +kernel⟩
  simp only [State.FaultLaw, State.AssetLaw]
  decide +kernel

theorem witness_ReleaseVisit :
    (releasing.Canonical ∧ releasing.FaultLaw ∧ releasing.TreeLaw)
      ∧ releasing.resetHeld = false ∧ releasing.mode = .run ∧ releasing.walk = some ⟨210, .release, none, []⟩
      ∧ releasing.faultIdOf 210 = none ∧ nextCursor releasing 210 [] = some [300]
      ∧ (∃ z ∈ ((releasing.asset? 300).bind fun x => x.absorbedBy), z = 210 ∨ releasing.faultIdOf z = none)
      ∧ (∀ h ∈ releasing.ancestorsOf 300, releasing.faultIdOf h = none) ∧ nextCursor releasing 210 [301] = none :=
  ⟨releasing_meets_laws, by decide +kernel⟩

/-- The state before the rebuild's visit of lamp 300. -/
def rebuilding : State :=
  { absorbing with mode := .entering, walk := none, rebuild := some ⟨some 210, some ⟨1, 49⟩⟩ }

theorem rebuilding_meets_laws : rebuilding.Canonical ∧ rebuilding.FaultLaw ∧ rebuilding.TreeLaw := by
  refine ⟨by decide +kernel, ?_, by decide +kernel⟩
  simp only [State.FaultLaw, State.AssetLaw]
  decide +kernel

theorem witness_RebuildVisit :
    (rebuilding.Canonical ∧ rebuilding.FaultLaw ∧ rebuilding.TreeLaw)
      ∧ rebuilding.resetHeld = false ∧ county.mode ≠ .entering ∧ rebuilding.mode = .entering
      ∧ rebuilding.rebuild = some ⟨some 210, some ⟨1, 49⟩⟩ ∧ rebuilding.rebuildNext (some 210) = some 300
      ∧ rebuilding.rebuildNext (some 1500) = none ∧ rebuilding.rebuildNext (some 301) = some 1500
      ∧ rebuilding.ancestorsOf 300 = [] ++ 210 :: [] ∧ rebuilding.faultIdOf 210 = some 47
      ∧ (rebuilding.asset? 300).map Asset.faultId = some (some 46)
      ∧ (∀ h ∈ rebuilding.ancestorsOf 1500, rebuilding.faultIdOf h = none) ∧ rebuilding.owed = []
      ∧ (∀ v ∈ rebuilding.rebuildNext (some 301), rebuilding.rebuildNext (some v) = none)
      ∧ (∃ v ∈ rebuilding.rebuildNext (some 210), rebuilding.rebuildNext (some v) ≠ none) :=
  ⟨rebuilding_meets_laws, by decide +kernel⟩

theorem witness_SampleSteps :
    let contributes (a : Nat) (x : Asset) (c : Condition) : Prop :=
      (∃ e ∈ county.points, e.2 = .status a c)
        ∨ (∃ e ∈ county.outstations, e.2.config.link = some a ∧ c = (match e.2.comms with
          | .new => .unknown
          | .online => .ok
          | .silent => .fail))
        ∨ ∃ l ∈ x.window, l.result = c
    county.Canonical
      ∧ (∃ x ∈ county.asset? 1500, contributes 1500 x .ok ∧ ∀ c, contributes 1500 x c → c.code ≤ Condition.ok.code)
      ∧ ∃ x ∈ county.asset? 301, ∀ c, contributes 301 x c → c.code ≤ Condition.unknown.code := by
  refine ⟨by decide +kernel, ⟨loopAsset (loopWindow 100 false), by decide +kernel, by decide +kernel, fun c h => ?_⟩,
    ⟨{ plainAsset .lamp (some 210) with absorbedBy := some 210 }, by decide +kernel, fun c h => ?_⟩⟩ <;>
  cases c <;> revert h <;> decide +kernel

/-- The county with lamp 301 FAULTY, unabsorbed and without a record. -/
def opening : State :=
  county.adjustAsset 301 fun x => { x with integrator := 8, health := .faulty .degraded, absorbedBy := none }

/-- The county's table with one place free and the whole range of IDs to choose from, asset 301 at the head of the waiting
list: what a freed record leaves. -/
def serving : State :=
  { opening with
    records := (List.range 511).map fun i => (i + 1, cabinetRecord), nextId := 65535, waiting := [301, 1500] }

theorem serving_canonical : serving.Canonical := by
  refine ⟨by decide +kernel, by decide +kernel, by decide +kernel, ?_⟩
  simpa [serving, Table.wf, Function.comp_def, List.map_map] using
    (List.pairwise_map.mpr (List.pairwise_lt_range.imp fun h => Nat.succ_lt_succ h) :
      ((List.range 511).map Nat.succ).Pairwise (· < ·))

theorem witness_RecordCreation :
    (serving.Canonical ∧ 1 ≤ serving.nextId ∧ serving.nextId ≤ 65535 ∧ serving.records.length < 512
      ∧ (serving.asset? 301).map Asset.health = some (.faulty .degraded) ∧ serving.waiting = 301 :: [1500])
      ∧ opening.Canonical ∧ opening.nextId = 48 ∧ opening.waiting = []
      ∧ (opening.asset? 301).map Asset.health = some (.faulty .degraded) :=
  ⟨⟨serving_canonical, by decide +kernel⟩, by decide +kernel⟩

/-- The county with a full fault table. -/
def fullTable : State := county.setRecords ((List.range 512).map fun i => (i, cabinetRecord))

theorem fullTable_canonical : fullTable.Canonical := by
  refine ⟨by decide +kernel, by decide +kernel, by decide +kernel, ?_⟩
  simpa [fullTable, State.setRecords, Table.wf, Function.comp_def] using List.pairwise_lt_range (n := 512)

theorem witness_FaultRequests :
    (fullTable.Canonical ∧ 512 ≤ fullTable.records.length ∧ fullTable.absorbedByOf 1500 = none)
      ∧ county.Canonical ∧ county.absorbedByOf 300 = some 210 ∧ county.faultIdOf 300 = none
      ∧ county.absorbedByOf 210 = none ∧ county.faultIdOf 210 = some 47 ∧ county.records.get? 47 = some cabinetRecord
      ∧ cabinetRecord.asset = 210 ∧ county.absorbedByOf 1500 = none ∧ county.faultIdOf 1500 = none
      ∧ county.records.length < 512 :=
  ⟨⟨fullTable_canonical, by decide +kernel, by decide +kernel⟩, by decide +kernel⟩

/-- The absorbed-by fields and the counts n of the county agree with its records, as they do of a walk in flight. -/
theorem county_meets_correlation_laws :
    county.CountLaw ∧ county.AbsorptionLaw ∧ absorbing.CountLaw ∧ absorbing.AbsorptionLaw := by
  unfold State.CountLaw State.AbsorptionLaw State.AncestorLaw State.absorbPending State.releasePending
  repeat' (first | apply And.intro | decide +kernel)

theorem witness_AbsorptionLawKept :
    county.Canonical ∧ county.InRange ∧ county.TreeLaw ∧ county.FaultLaw ∧ county.AbsorptionLaw
      ∧ (∃ t : State, step county = .next t) ∧ county.mode = .run ∧ county.walkList = [] ∧ county.walk = none
      ∧ (county.asset? 300).map Asset.absorbedBy = some (some 210) :=
  ⟨county_meets_laws.1, county_in_range, county_meets_laws.2.2.2.2.1, county_meets_laws.2.2.1,
    county_meets_correlation_laws.2.1, ⟨_, rfl⟩, by decide +kernel⟩

/-- The invariants hold in the county before a step, and the step answers a next state. -/
theorem witness_laws_kept :
    (∃ t : State, step county = .next t) ∧ county.TablesSound ∧ county.InRange ∧ county.IntegratorsBounded
      ∧ county.Canonical ∧ county.FaultLaw ∧ county.UrgencyLaw ∧ (∀ e ∈ county.records, e.2.steps ≤ 15)
      ∧ county.TreeLaw ∧ county.CountLaw :=
  ⟨⟨_, rfl⟩, county_meets_laws.2.1, county_in_range, county_meets_laws.2.2.2.2.2, county_meets_laws.1,
    county_meets_laws.2.2.1, county_meets_laws.2.2.2.1, by decide +kernel, county_meets_laws.2.2.2.2.1,
    county_meets_correlation_laws.1⟩

end Sys2Proof.Tests
end

section
/-! PROOFS. The sample (R13, R69 to R73): the worst condition found by the model's fold is the greatest contributing
source, and the request handed to the fault table changes an asset only in its fault ID and its waiting flag. -/

namespace Sys2Proof.Machine

/-! ## The worst condition (R13) -/

theorem Condition.rank_eq_code (c : Condition) : c.rank = c.code := by cases c <;> rfl

/-- The code of a condition names it. -/
theorem Condition.code_inj {c d : Condition} (h : c.code = d.code) : c = d := by
  revert h
  cases c <;> cases d <;> decide

theorem Condition.worse_eq_left {c d : Condition} (h : d.code ≤ c.code) : c.worse d = c := by
  simp only [Condition.worse, Condition.rank_eq_code, if_neg (not_lt.2 h)]

theorem Condition.worse_eq_right {c d : Condition} (h : c.code ≤ d.code) : c.worse d = d := by
  rcases h.lt_or_eq with h | h
  · simp only [Condition.worse, Condition.rank_eq_code, if_pos h]
  · rw [Condition.worse_eq_left h.ge, Condition.code_inj h]

/-- The fold of `worse` ends in the greatest condition it meets. -/
theorem foldl_worse_eq {w : Condition} (cs : List Condition) (c : Condition) (hw : w = c ∨ w ∈ cs)
    (hc : c.code ≤ w.code) (hcs : ∀ d ∈ cs, d.code ≤ w.code) : cs.foldl Condition.worse c = w := by
  induction cs generalizing c with
  | nil => exact (hw.resolve_right List.not_mem_nil).symm
  | cons d rest ih =>
    obtain ⟨hd, hrest⟩ := List.forall_mem_cons.1 hcs
    rw [List.foldl_cons]
    rcases hw with rfl | hw
    · rw [Condition.worse_eq_left hd]
      exact ih w (.inl rfl) hc hrest
    · rcases le_total c.code d.code with h | h
      · rw [Condition.worse_eq_right h]
        exact ih d (List.mem_cons.1 hw) hd hrest
      · rw [Condition.worse_eq_left h]
        refine ih c ((List.mem_cons.1 hw).imp_left fun e => ?_) hc hrest
        exact Condition.code_inj (le_antisymm (e ▸ h) hc)

/-- The worst of a list is its greatest member, UNKNOWN standing for none (R13). -/
theorem worstOf_eq {w : Condition} {cs : List Condition} (hw : w = .unknown ∨ w ∈ cs)
    (hcs : ∀ d ∈ cs, d.code ≤ w.code) : worstOf cs = w :=
  foldl_worse_eq cs .unknown hw (Nat.zero_le _) hcs

/-- The contributing sources of an asset, kind by kind (R13). -/
theorem State.mem_sourcesOf_iff (s : State) (a : Nat) (x : Asset) (c : Condition) :
    c ∈ s.sourcesOf a x ↔ (∃ e ∈ s.points, e.2 = .status a c)
      ∨ (∃ e ∈ s.outstations, e.2.config.link = some a ∧ c = e.2.comms.linkCondition)
      ∨ ∃ l ∈ x.window, l.result = c := by
  simp only [State.sourcesOf, List.mem_append, or_assoc, List.mem_filterMap]
  refine or_congr (exists_congr fun e => and_congr_right fun _ => ?_)
    (or_congr (exists_congr fun e => and_congr_right fun _ => ?_) ?_)
  · cases e.2 <;> simp
  · simp [eq_comm]
  · cases x.window <;> simp [eq_comm]

/-! ## The step (R70 to R72) -/

theorem healthStep_healthy (p : FaultProfile) (w : Condition) (i : Nat) :
    healthStep p w i .healthy
      = if i < p.threshold then .healthy else .faulty (if w = .fail then .fail else .degraded) := by
  simp only [healthStep, ← not_lt, ite_not]

/-- A sample of a present asset: its stepped record is put back, and the change is handed on (R69, R73). -/
theorem State.sample_of_asset {s : State} {a : Nat} {x : Asset} (h : s.asset? a = some x) :
    s.sample a = (s.putAsset a (x.sampled (s.faultProfile x.config.faultProfile) (s.worstCondition a x))).handChange a
      x.health (x.sampled (s.faultProfile x.config.faultProfile) (s.worstCondition a x)).health := by
  simp only [State.sample, h]

/-- A condition and severity that stand hand nothing on. -/
@[simp] theorem State.handChange_self (s : State) (a : Nat) (h : Health) : s.handChange a h h = s := by
  rcases h with _ | _ | _ <;> rfl

/-! ## What a request leaves of every asset -/

theorem State.asset?_putAsset_self (s : State) (a : Nat) (x : Asset) : (s.putAsset a x).asset? a = some x :=
  Table.get?_put_self _ _ _

theorem State.asset?_putAsset_of_ne (s : State) {a b : Nat} (x : Asset) (h : b ≠ a) :
    (s.putAsset a x).asset? b = s.asset? b := Table.get?_put_of_ne _ _ h

/-- An asset without what the fault table writes into it. -/
def Asset.withoutFault (x : Asset) : Asset := { x with faultId := none, waiting := false }

/-- The same assets are present, and each agrees but in its fault ID and waiting flag. -/
def SameAssets (s t : State) : Prop :=
  ∀ a, (t.asset? a).map Asset.withoutFault = (s.asset? a).map Asset.withoutFault

theorem SameAssets.of_assets_eq {s t : State} (h : t.assets = s.assets) : SameAssets s t := fun a => by
  simp only [State.asset?, h]

theorem SameAssets.refl (s : State) : SameAssets s s := .of_assets_eq rfl

theorem SameAssets.trans {s t u : State} (h : SameAssets s t) (k : SameAssets t u) : SameAssets s u :=
  fun a => (k a).trans (h a)

/-- What is read of an asset beside its fault ID and waiting flag is kept. -/
theorem SameAssets.map_eq {s t : State} (h : SameAssets s t) {β : Type} (f : Asset → β)
    (hf : ∀ x, f x.withoutFault = f x) (a : Nat) : (t.asset? a).map f = (s.asset? a).map f := by
  have comp (u : State) : (u.asset? a).map f = ((u.asset? a).map Asset.withoutFault).map f := by
    rw [Option.map_map]
    exact congrArg (fun g => (u.asset? a).map g) (funext fun x => (hf x).symm)
  rw [comp t, comp s, h a]

/-- A change of one asset in what the fault table writes into it. -/
theorem SameAssets.of_assets_adjust {s t : State} {a : Nat} (f : Asset → Asset) (h : t.assets = s.assets.adjust a f)
    (hf : ∀ x, (f x).withoutFault = x.withoutFault) : SameAssets s t := fun b => by
  simp only [State.asset?, h, Table.get?_adjust]
  split
  · rw [Option.map_map]
    exact congrArg (fun g => (s.assets.get? b).map g) (funext hf)
  · rfl

theorem State.onRecordOf_assets (s : State) (a : Nat) (f : FaultRecord → FaultRecord) :
    (s.onRecordOf a f).assets = s.assets := by
  unfold State.onRecordOf
  split <;> rfl

theorem State.countAtCreation_assets (s : State) (a : Nat) : (s.countAtCreation a).assets = s.assets := by
  unfold State.countAtCreation
  split
  · rfl
  · exact List.foldlRecOn (motive := fun t : State => t.assets = s.assets) _ _ rfl fun t h _ _ =>
      (State.onRecordOf_assets t a _).trans h

theorem sameAssets_storeRecord (s : State) (a : Nat) (r : FaultRecord) : SameAssets s (s.storeRecord a r) :=
  .of_assets_adjust (fun x => { x with faultId := some s.freeId }) rfl fun _ => rfl

theorem sameAssets_createRecord (s : State) (a : Nat) : SameAssets s (s.createRecord a) := by
  unfold State.createRecord
  split
  · exact .refl s
  · split
    · exact .refl s
    · dsimp only
      split
      · exact (sameAssets_storeRecord _ _ _).trans (.of_assets_eq (State.countAtCreation_assets _ a))
      · exact sameAssets_storeRecord _ _ _

theorem sameAssets_openFault (s : State) (a : Nat) : SameAssets s (s.openFault a) := by
  unfold State.openFault
  split
  · exact .refl s
  · split
    · exact .of_assets_eq (s.onRecordOf_assets _ _)
    · split
      · exact sameAssets_createRecord s a
      · exact .of_assets_adjust (fun x => { x with waiting := true }) rfl fun _ => rfl

theorem sameAssets_serveWaiting (s : State) : SameAssets s s.serveWaiting := by
  unfold State.serveWaiting
  split
  · exact .refl s
  · refine SameAssets.trans ?_ (sameAssets_createRecord _ _)
    exact .of_assets_adjust (fun x => { x with waiting := false }) rfl fun _ => rfl

theorem sameAssets_clearRecord (s : State) (id a : Nat) (manual : Bool) : SameAssets s (s.clearRecord id a manual) := by
  refine SameAssets.trans ?_ (sameAssets_serveWaiting _)
  have h : SameAssets s ((s.discardRecord id a).notify (.cleared id a manual)) :=
    .of_assets_adjust (fun x => { x with faultId := none }) rfl fun _ => rfl
  split
  · exact h
  · exact h

theorem sameAssets_becameHealthy (s : State) (a : Nat) : SameAssets s (s.becameHealthy a) := by
  unfold State.becameHealthy
  split
  · exact .refl s
  · split
    · exact sameAssets_clearRecord s _ a _
    · exact .of_assets_eq (s.onRecordOf_assets _ _)
    · split
      · exact .of_assets_adjust (fun x => { x with waiting := false }) rfl fun _ => rfl
      · exact .refl s

theorem sameAssets_handChange (s : State) (a : Nat) (before after : Health) :
    SameAssets s (s.handChange a before after) := by
  unfold State.handChange
  split
  · exact sameAssets_openFault s a
  · exact sameAssets_becameHealthy s a
  · exact .of_assets_eq (s.onRecordOf_assets a _)
  · exact .refl s

/-- The request a sample hands on changes no asset's integrator, condition or severity. -/
theorem State.handChange_integrator_health (s : State) (a : Nat) (before after : Health) (b : Nat) :
    ((s.handChange a before after).asset? b).map (fun y => (y.integrator, y.health))
      = (s.asset? b).map fun y => (y.integrator, y.health) :=
  (sameAssets_handChange s a before after).map_eq _ (fun _ => rfl) b

/-- Settles O52: the four parts follow from the sample's one equation, the stepped record written out. -/
theorem sampleSteps : Obligations.SampleSteps := by
  intro s a x w _ hx contributes hw hmax p i h
  have hworst : s.worstCondition a x = w :=
    worstOf_eq (hw.imp_right (s.mem_sourcesOf_iff a x w).2) fun c hc => hmax c ((s.mem_sourcesOf_iff a x c).1 hc)
  have hhealth : healthStep p w i x.health = h := by
    simp only [h]
    cases x.health with
    | healthy => exact healthStep_healthy p w i
    | faulty severity => rfl
  have hstep : x.sampled p w = { x with integrator := i, health := h } := by
    rw [← hhealth]
    rfl
  have hsample : s.sample a = (s.putAsset a { x with integrator := i, health := h }).handChange a x.health h := by
    rw [State.sample_of_asset hx, hworst, hstep]
  clear_value i h
  refine ⟨?_, fun b hb => ?_, ?_, fun hsame => ?_⟩
  · rw [hsample, State.handChange_integrator_health, State.asset?_putAsset_self]
    rfl
  · rw [hsample, State.handChange_integrator_health, State.asset?_putAsset_of_ne _ _ hb]
  · rw [hsample]
    cases x.health with
    | healthy => cases h <;> rfl
    | faulty before => cases before <;> rcases h with _ | _ | _ <;> rfl
  · rw [hsample, hsame, State.handChange_self]
    rfl

end Sys2Proof.Machine
end

section
/-! PROOFS. The dispatch queue (R149): its order is the linear order of a key made of U, the opened run-minute and the
fault ID, and the queue is the records sorted by that key. -/

namespace Sys2Proof.Machine

/-! ## The order -/

/-- The place of a record in the order of R149: U descending, then opened run-minute, then fault ID. -/
def dispatchKey (e : Nat × FaultRecord) : ℕᵒᵈ ×ₗ ℕ ×ₗ ℕ :=
  toLex (OrderDual.toDual e.2.urgency, toLex (e.2.openedRun, e.1))

theorem dispatchKey_lt_iff (e e' : Nat × FaultRecord) :
    dispatchKey e < dispatchKey e' ↔ e'.2.urgency < e.2.urgency
      ∨ e.2.urgency = e'.2.urgency
        ∧ (e.2.openedRun < e'.2.openedRun ∨ e.2.openedRun = e'.2.openedRun ∧ e.1 < e'.1) := by
  simp only [dispatchKey, Prod.Lex.toLex_lt_toLex, OrderDual.toDual_lt_toDual, OrderDual.toDual_inj]

/-- The model's test is the order of the keys. -/
theorem ranksBefore_iff (e e' : Nat × FaultRecord) : ranksBefore e e' = true ↔ dispatchKey e ≤ dispatchKey e' := by
  simp only [ranksBefore, Bool.or_eq_true, Bool.and_eq_true, decide_eq_true_eq, beq_iff_eq, dispatchKey,
    Prod.Lex.toLex_le_toLex, OrderDual.toDual_lt_toDual, OrderDual.toDual_inj]

/-- Two records of one key have one fault ID. -/
theorem fst_eq_of_dispatchKey_eq {e e' : Nat × FaultRecord} (h : dispatchKey e = dispatchKey e') : e.1 = e'.1 :=
  congrArg (fun k => (ofLex (ofLex k).2).2) h

/-! ## The queue is the sorted table -/

theorem insertRanked_eq (e : Nat × FaultRecord) (q : List (Nat × FaultRecord)) :
    insertRanked e q = q.orderedInsert (fun e e' => ranksBefore e e' = true) e := by
  induction q with
  | nil => rfl
  | cons e' rest ih => rw [insertRanked, List.orderedInsert, ih]

theorem State.dispatchQueue_eq (s : State) :
    s.dispatchQueue = s.records.insertionSort (fun e e' => ranksBefore e e' = true) :=
  congrArg (fun f => s.records.foldr f []) (funext₂ insertRanked_eq)

theorem State.dispatchQueue_perm (s : State) : s.dispatchQueue.Perm s.records := by
  rw [s.dispatchQueue_eq]
  exact List.perm_insertionSort _ _

theorem State.dispatchQueue_sorted (s : State) :
    s.dispatchQueue.Pairwise fun e e' => dispatchKey e ≤ dispatchKey e' := by
  have total : Std.Total fun e e' : Nat × FaultRecord => ranksBefore e e' = true :=
    ⟨fun e e' => by simpa only [ranksBefore_iff] using le_total _ _⟩
  have trans : IsTrans (Nat × FaultRecord) fun e e' => ranksBefore e e' = true :=
    ⟨fun e e' e'' => by simpa only [ranksBefore_iff] using le_trans⟩
  rw [s.dispatchQueue_eq]
  exact (List.pairwise_insertionSort _ s.records).imp fun {e e'} => (ranksBefore_iff e e').1

/-- No two places of the queue hold the same fault ID. -/
theorem State.dispatchQueue_ids_ne {s : State} (h : s.records.wf = true) :
    s.dispatchQueue.Pairwise fun e e' => e.1 ≠ e'.1 := by
  have keys : s.records.Pairwise fun e e' => e.1 ≠ e'.1 :=
    (List.pairwise_map.1 ((Table.wf_iff _).1 h)).imp ne_of_lt
  exact keys.perm s.dispatchQueue_perm.symm fun hne => hne.symm

/-- The order is strict, since no two records share a fault ID. -/
theorem State.dispatchQueue_strict {s : State} (h : s.records.wf = true) :
    s.dispatchQueue.Pairwise fun e e' => dispatchKey e < dispatchKey e' :=
  (s.dispatchQueue_sorted.and (State.dispatchQueue_ids_ne h)).imp fun ⟨hle, hne⟩ =>
    lt_of_le_of_ne hle fun heq => hne (fst_eq_of_dispatchKey_eq heq)

/-! ## The rank -/

/-- The place the rank names is within the queue. -/
theorem State.findIdx_dispatchQueue_lt {s : State} {e : Nat × FaultRecord} (he : e ∈ s.records) :
    (s.dispatchQueue.findIdx fun e' => e'.1 = e.1) < s.dispatchQueue.length :=
  List.findIdx_lt_length_of_exists ⟨e, s.dispatchQueue_perm.mem_iff.2 he, by simp⟩

/-- The place the rank names holds the record. -/
theorem State.dispatchQueue_getElem?_rankOf {s : State} (h : s.records.wf = true) {e : Nat × FaultRecord}
    (he : e ∈ s.records) : s.dispatchQueue[s.rankOf e.1 - 1]? = some e := by
  have hlt := State.findIdx_dispatchQueue_lt he
  have hid : (s.dispatchQueue[s.dispatchQueue.findIdx fun e' => e'.1 = e.1]).1 = e.1 := by
    simpa using List.findIdx_getElem (w := hlt)
  have hmem := s.dispatchQueue_perm.mem_iff.1 (List.getElem_mem hlt)
  have hval := (Table.get?_of_mem h hmem).symm.trans (hid ▸ Table.get?_of_mem h he)
  rw [State.rankOf, Nat.add_sub_cancel, List.getElem?_eq_getElem hlt]
  exact congrArg some (Prod.ext hid (Option.some.inj hval))

/-- Settles O21: the queue is a sort of the records by a key in which no two records agree. -/
theorem dispatchQueueOrdered : Obligations.DispatchQueueOrdered := by
  rintro s ⟨-, -, -, h⟩
  refine ⟨s.dispatchQueue_perm, (State.dispatchQueue_strict h).imp fun hlt => (dispatchKey_lt_iff _ _).1 hlt,
    fun e he => ⟨Nat.succ_pos _, ?_, State.dispatchQueue_getElem?_rankOf h he⟩⟩
  rw [← s.dispatchQueue_perm.length_eq]
  exact State.findIdx_dispatchQueue_lt he

end Sys2Proof.Machine
end

section
/-! PROOFS. Urgencies that stand at the formula (R143, R145): one invariant of the records, which every request to the fault
table and every sample keeps. -/

namespace Sys2Proof.Machine

/-! ## The inputs of U outside a record -/

/-- What R144 reads of an asset: its weight W and the fault profile that gives B, K and S. -/
def Asset.terms (x : Asset) : Nat × Fin 16 := (x.config.weight, x.config.faultProfile)

/-- The fault profiles and the terms of every asset stand: what R144 reads for a record's U outside the record. -/
structure SameTerms (s t : State) : Prop where
  faultProfiles : t.faultProfiles = s.faultProfiles
  terms : ∀ a, (t.asset? a).map Asset.terms = (s.asset? a).map Asset.terms

theorem SameTerms.terms_eq {s t : State} (h : SameTerms s t) {a : Nat} {x y : Asset} (hx : s.asset? a = some x)
    (hy : t.asset? a = some y) : y.terms = x.terms := by
  have hmap := h.terms a
  rw [hx, hy] at hmap
  exact Option.some.inj hmap

theorem FaultFrame.sameTerms {s t : State} (h : FaultFrame s t) : SameTerms s t :=
  ⟨h.faultProfiles, fun a => by
    have hc := congrArg (Option.map fun c : AssetConfig => (c.weight, c.faultProfile)) (h.configs a)
    rw [Option.map_map, Option.map_map] at hc
    exact hc⟩

theorem SameTerms.of_assets_eq {s t : State} (ha : t.assets = s.assets) (hp : t.faultProfiles = s.faultProfiles) :
    SameTerms s t :=
  ⟨hp, fun a => by simp only [State.asset?, ha]⟩

theorem sameTerms_adjustAsset (s : State) (a : Nat) {f : Asset → Asset} (hf : ∀ x, (f x).terms = x.terms) :
    SameTerms s (s.adjustAsset a f) :=
  ⟨rfl, fun b => by
    simp only [State.asset?, State.adjustAsset, State.setAssets_assets, Table.get?_adjust]
    split
    · rw [Option.map_map]
      exact congrArg (fun g => (s.assets.get? b).map g) (funext hf)
    · rfl⟩

theorem sameTerms_mapAssets (s : State) {f : Nat → Asset → Asset} (hf : ∀ a x, (f a x).terms = x.terms) :
    SameTerms s (s.setAssets (s.assets.mapAll f)) :=
  ⟨rfl, fun b => by
    simp only [State.asset?, State.setAssets_assets, Table.get?_mapAll, Option.map_map]
    exact congrArg (fun g => (s.assets.get? b).map g) (funext (hf b))⟩

theorem sameTerms_putAsset {s : State} {a : Nat} {x y : Asset} (h : s.asset? a = some x) (hc : y.terms = x.terms) :
    SameTerms s (s.putAsset a y) :=
  ⟨rfl, fun b => by
    by_cases hb : b = a
    · rw [hb, State.asset?_putAsset_self, h, Option.map_some, Option.map_some, hc]
    · rw [State.asset?_putAsset_of_ne s y hb]⟩

/-! ## The invariant -/

/-- U is the formula of R143 on the record's current inputs, if its asset is present, and s is at most 15. -/
def State.Priced (s : State) (r : FaultRecord) : Prop :=
  (∀ x ∈ s.asset? r.asset,
      r.urgency = urgencyOf (s.faultProfile x.config.faultProfile) r.severity x.config.weight r.absorbed r.steps)
    ∧ r.steps ≤ 15

/-- Every record is priced. -/
def State.AllPriced (s : State) : Prop := ∀ e ∈ s.records, s.Priced e.2

/-- The invariant is the law of the statement, with the bound of s. -/
theorem State.allPriced_iff (s : State) : s.AllPriced ↔ s.UrgencyLaw ∧ ∀ e ∈ s.records, e.2.steps ≤ 15 := forall₂_and

/-- A record is priced alike in states of the same terms. -/
theorem State.Priced.of_sameTerms {s t : State} {r : FaultRecord} (hr : s.Priced r) (h : SameTerms s t) :
    t.Priced r := by
  refine ⟨fun x hx => ?_, hr.2⟩
  obtain ⟨y, hy, hterms⟩ := Option.map_eq_some_iff.1 ((h.terms r.asset).symm.trans (congrArg (Option.map Asset.terms) hx))
  obtain ⟨hweight, hprofile⟩ := Prod.mk.inj hterms
  have hprice := hr.1 y hy
  rw [hweight, hprofile] at hprice
  rwa [State.faultProfile, h.faultProfiles]

/-- A recomputed record is priced, whatever its urgency was (R145). -/
theorem State.priced_refreshed (s : State) {r : FaultRecord} (h : r.steps ≤ 15) : s.Priced (s.refreshed r) := by
  unfold State.refreshed
  split
  · next habsent => exact ⟨fun x hx => by simp [habsent] at hx, h⟩
  · next x hx =>
    dsimp only
    split
    · next hu => exact ⟨fun y hy => by cases hx.symm.trans hy; exact hu.symm, h⟩
    · exact ⟨fun y hy => by cases hx.symm.trans hy; rfl, h⟩

/-- A new record is priced (R103). -/
theorem State.priced_newRecord {s : State} {a : Nat} {x : Asset} (h : s.asset? a = some x) (severity : Severity) :
    s.Priced (s.newRecord a x severity) :=
  ⟨fun y hy => by cases h.symm.trans hy; rfl, Nat.zero_le _⟩

/-! ## Transfer -/

/-- The terms stand, and every record is an old one or is priced. -/
theorem State.AllPriced.of_records {s t : State} (hs : s.AllPriced) (h : SameTerms s t)
    (hr : ∀ e ∈ t.records, e ∈ s.records ∨ s.Priced e.2) : t.AllPriced := fun e he =>
  ((hr e he).elim (hs e) id).of_sameTerms h

/-- The terms and the records stand. -/
theorem State.AllPriced.of_sameTerms {s t : State} (hs : s.AllPriced) (h : SameTerms s t) (hr : t.records = s.records) :
    t.AllPriced :=
  hs.of_records h fun _ he => .inl (hr ▸ he)

/-- An operation that touches neither assets, fault profiles nor records. -/
theorem State.AllPriced.of_eq {s t : State} (hs : s.AllPriced)
    (h : (t.assets, t.faultProfiles, t.records) = (s.assets, s.faultProfiles, s.records)) : t.AllPriced := by
  obtain ⟨hassets, hrest⟩ := Prod.mk.inj h
  obtain ⟨hprofiles, hrecords⟩ := Prod.mk.inj hrest
  exact hs.of_sameTerms (.of_assets_eq hassets hprofiles) hrecords

/-- With no records there is nothing to price. -/
theorem State.allPriced_of_nil {s : State} (h : s.records = []) : s.AllPriced := fun e he => by
  rw [h] at he
  exact absurd he List.not_mem_nil

/-- A run of operations that each keep the invariant keeps it. -/
theorem State.AllPriced.foldl {β : Type} {f : State → β → State} (h : ∀ s b, s.AllPriced → (f s b).AllPriced)
    (l : List β) {s : State} (hs : s.AllPriced) : (l.foldl f s).AllPriced :=
  List.foldlRecOn l f hs fun t ht b _ => h t b ht

/-! ## Changes of assets -/

/-- A change of one asset that keeps its terms. -/
theorem State.AllPriced.adjustAsset {s : State} (hs : s.AllPriced) (a : Nat) {f : Asset → Asset}
    (hf : ∀ x, (f x).terms = x.terms) : (s.adjustAsset a f).AllPriced :=
  hs.of_sameTerms (sameTerms_adjustAsset s a hf) rfl

/-- A record put back for a present asset, with its terms. -/
theorem State.AllPriced.putAsset {s : State} (hs : s.AllPriced) {a : Nat} {x y : Asset} (h : s.asset? a = some x)
    (hc : y.terms = x.terms) : (s.putAsset a y).AllPriced :=
  hs.of_sameTerms (sameTerms_putAsset h hc) rfl

/-- A change of every asset that keeps each asset's terms. -/
theorem State.AllPriced.mapAssets {s : State} (hs : s.AllPriced) {f : Nat → Asset → Asset}
    (hf : ∀ a x, (f a x).terms = x.terms) : (s.setAssets (s.assets.mapAll f)).AllPriced :=
  hs.of_sameTerms (sameTerms_mapAssets s hf) rfl

theorem State.AllPriced.gapEveryLoop {s : State} (hs : s.AllPriced) : s.gapEveryLoop.AllPriced :=
  hs.mapAssets fun _ _ => rfl

/-! ## Changes of records -/

/-- The entries after a put are the new one and old ones. -/
theorem Table.mem_put {α : Type} {t : Table α} {k : Nat} {x : α} {e : Nat × α} (h : e ∈ Table.put t k x) :
    e = (k, x) ∨ e ∈ t := by
  induction t with
  | nil => simpa [Table.put] using h
  | cons e' rest ih =>
    simp only [Table.put] at h
    split at h
    · simpa using h
    · split at h
      · exact (List.mem_cons.1 h).imp_right (List.mem_cons_of_mem _)
      · rcases List.mem_cons.1 h with rfl | h
        · exact .inr List.mem_cons_self
        · exact (ih h).imp_right (List.mem_cons_of_mem _)

/-- The entries after an adjust are old ones, and the changed one under its key. -/
theorem Table.mem_adjust {α : Type} {t : Table α} {k : Nat} {f : α → α} {e : Nat × α} (h : e ∈ Table.adjust t k f) :
    (e ∈ t ∧ e.1 ≠ k) ∨ ∃ x, (k, x) ∈ t ∧ e = (k, f x) := by
  obtain ⟨e', he', rfl⟩ := List.mem_map.1 h
  split
  · next hk => exact .inr ⟨e'.2, hk ▸ he', by rw [← hk]⟩
  · next hk => exact .inl ⟨he', hk⟩

theorem State.AllPriced.adjustRecord {s : State} (hs : s.AllPriced) (id : Nat) {f : FaultRecord → FaultRecord}
    (hf : ∀ r, s.Priced r → s.Priced (f r)) : (s.adjustRecord id f).AllPriced :=
  hs.of_records (faultFrame_adjustRecord s id f).sameTerms fun _ he => by
    rcases Table.mem_adjust he with ⟨he, -⟩ | ⟨r, hr, rfl⟩
    · exact .inl he
    · exact .inr (hf r (hs _ hr))

theorem State.AllPriced.onRecordOf {s : State} (hs : s.AllPriced) (a : Nat) {f : FaultRecord → FaultRecord}
    (hf : ∀ r, s.Priced r → s.Priced (f r)) : (s.onRecordOf a f).AllPriced := by
  unfold State.onRecordOf
  split
  · exact hs.adjustRecord _ hf
  · exact hs

theorem State.AllPriced.mapRecords {s : State} (hs : s.AllPriced) {f : FaultRecord → FaultRecord}
    (hf : ∀ r, s.Priced r → s.Priced (f r)) : (s.setRecords (s.records.mapAll fun _ r => f r)).AllPriced :=
  hs.of_records (faultFrame_setRecords s _).sameTerms fun _ he => by
    obtain ⟨e, hmem, rfl⟩ := List.mem_map.1 he
    exact .inr (hf e.2 (hs e hmem))

/-! ## Requests to the fault table -/

theorem State.AllPriced.raiseOn {s : State} (hs : s.AllPriced) (a : Nat) : (s.raiseOn a).AllPriced :=
  hs.onRecordOf a fun _ hr => s.priced_refreshed hr.2

theorem State.AllPriced.lowerOn {s : State} (hs : s.AllPriced) (a : Nat) : (s.lowerOn a).AllPriced :=
  hs.onRecordOf a fun _ hr => s.priced_refreshed hr.2

theorem State.AllPriced.severityRaised {s : State} (hs : s.AllPriced) (a : Nat) : (s.severityRaised a).AllPriced :=
  hs.onRecordOf a fun r hr => s.priced_refreshed (r := { r with severity := .fail }) hr.2

theorem State.AllPriced.notify {s : State} (hs : s.AllPriced) (n : Notice) : (s.notify n).AllPriced := hs.of_eq rfl

theorem State.AllPriced.sendChanged {s : State} (hs : s.AllPriced) (id : Nat) : (s.sendChanged id).AllPriced := by
  unfold State.sendChanged
  split
  · exact (hs.notify _).adjustRecord id fun _ hr => hr
  · exact hs

theorem State.AllPriced.countAtCreation {s : State} (hs : s.AllPriced) (a : Nat) : (s.countAtCreation a).AllPriced := by
  unfold State.countAtCreation
  split
  · exact hs
  · exact .foldl (fun _ _ ht => ht.raiseOn a) _ hs

theorem State.AllPriced.storeRecord {s : State} (hs : s.AllPriced) (a : Nat) {r : FaultRecord} (hr : s.Priced r) :
    (s.storeRecord a r).AllPriced :=
  hs.of_records (faultFrame_storeRecord s a r).sameTerms fun e he => by
    rcases Table.mem_put (t := s.records) he with rfl | he
    · exact .inr hr
    · exact .inl he

theorem State.AllPriced.createRecord {s : State} (hs : s.AllPriced) (a : Nat) : (s.createRecord a).AllPriced := by
  unfold State.createRecord
  split
  · exact hs
  · next x hx =>
    split
    · exact hs
    · next severity _ =>
      have stored := hs.storeRecord a (State.priced_newRecord hx severity)
      dsimp only
      split
      · exact (stored.countAtCreation a).of_eq rfl
      · exact stored

theorem State.AllPriced.joinWaiting {s : State} (hs : s.AllPriced) (a : Nat) : (s.joinWaiting a).AllPriced :=
  hs.of_sameTerms (faultFrame_joinWaiting s a).sameTerms rfl

theorem State.AllPriced.leaveWaiting {s : State} (hs : s.AllPriced) (a : Nat) : (s.leaveWaiting a).AllPriced :=
  hs.of_sameTerms (faultFrame_leaveWaiting s a).sameTerms rfl

theorem State.AllPriced.openFault {s : State} (hs : s.AllPriced) (a : Nat) : (s.openFault a).AllPriced := by
  unfold State.openFault
  split
  · exact hs
  · split
    · exact hs.raiseOn _
    · split
      · exact hs.createRecord a
      · exact hs.joinWaiting a

theorem State.AllPriced.serveWaiting {s : State} (hs : s.AllPriced) : s.serveWaiting.AllPriced := by
  unfold State.serveWaiting
  split
  · exact hs
  · next a rest _ =>
    have left : (s.setWaiting rest).AllPriced := hs.of_eq rfl
    refine State.AllPriced.createRecord ?_ a
    exact left.adjustAsset a fun _ => rfl

theorem State.AllPriced.discardRecord {s : State} (hs : s.AllPriced) (id a : Nat) : (s.discardRecord id a).AllPriced :=
  hs.of_records (faultFrame_discardRecord s id a).sameTerms fun _ he => .inl (List.mem_filter.1 he).1

theorem State.AllPriced.clearRecord {s : State} (hs : s.AllPriced) (id a : Nat) (manual : Bool) :
    (s.clearRecord id a manual).AllPriced := by
  have cleared := (hs.discardRecord id a).notify (.cleared id a manual)
  unfold State.clearRecord
  refine State.AllPriced.serveWaiting ?_
  split
  · exact cleared.of_eq rfl
  · exact cleared

theorem State.AllPriced.absorbRecord {s : State} (hs : s.AllPriced) (id d absorbing : Nat) :
    (s.absorbRecord id d absorbing).AllPriced := ((hs.discardRecord id d).notify _).serveWaiting

theorem State.AllPriced.becameHealthy {s : State} (hs : s.AllPriced) (a : Nat) : (s.becameHealthy a).AllPriced := by
  unfold State.becameHealthy
  split
  · exact hs
  · split
    · exact hs.clearRecord _ a false
    · exact hs.lowerOn _
    · split
      · exact hs.leaveWaiting a
      · exact hs

/-! ## The sample -/

theorem State.AllPriced.handChange {s : State} (hs : s.AllPriced) (a : Nat) (before after : Health) :
    (s.handChange a before after).AllPriced := by
  unfold State.handChange
  split
  · exact hs.openFault a
  · exact hs.becameHealthy a
  · exact hs.severityRaised a
  · exact hs

theorem State.AllPriced.sample {s : State} (hs : s.AllPriced) (a : Nat) : (s.sample a).AllPriced := by
  unfold State.sample
  split
  · exact hs
  · next x hx =>
    refine State.AllPriced.handChange ?_ a _ _
    exact hs.putAsset hx rfl

theorem State.AllPriced.sampleAll {s : State} (hs : s.AllPriced) (as : List Nat) : (s.sampleAll as).AllPriced :=
  .foldl (fun _ a ht => ht.sample a) as hs

end Sys2Proof.Machine
end

section
/-! PROOFS. The blocks' own work keeps every record priced: ticks, line units, answers, directives over tables and
records, modes and walks. -/

namespace Sys2Proof.Machine

/-! ## Operations outside the fault table -/

theorem State.AllPriced.reply {s : State} (hs : s.AllPriced) (dest : ReplyTo) (code : ReplyCode) (data : List Byte) :
    (s.reply dest code data).AllPriced := hs.of_eq rfl

theorem State.AllPriced.replyIfOwed {s : State} (hs : s.AllPriced) (dest : Option ReplyTo) (code : ReplyCode) :
    (s.replyIfOwed dest code).AllPriced := by
  cases dest with
  | none => exact hs
  | some dest => exact hs.reply dest code []

theorem State.AllPriced.setPoints {s : State} (hs : s.AllPriced) (x : Table Point) : (s.setPoints x).AllPriced :=
  hs.of_eq rfl

theorem State.AllPriced.adjustLine {s : State} (hs : s.AllPriced) (k : Fin 4) (f : Line → Line) :
    (s.adjustLine k f).AllPriced := hs.of_eq rfl

theorem State.AllPriced.settleBeacons {s : State} (hs : s.AllPriced) : s.settleBeacons.AllPriced := hs.of_eq rfl

/-! ## The work of ticks (R147 to R155, R87 to R91, R172, R173) -/

/-- Escalation recomputes U when s rises, and s stays within 15 (R147). -/
theorem State.Priced.escalated {s : State} {r : FaultRecord} (hr : s.Priced r) : s.Priced (s.escalated r) := by
  unfold State.escalated
  split
  · exact hr
  · dsimp only
    split
    · split
      · exact hr
      · split
        · next hlt => exact s.priced_refreshed (r := { r with minutes := 0, steps := r.steps + 1 }) hlt
        · next hge =>
          have h15 : r.steps = 15 := le_antisymm hr.2 (not_lt.1 hge)
          exact h15 ▸ hr
    · exact hr

theorem State.AllPriced.rankerMinute {s : State} (hs : s.AllPriced) : s.rankerMinute.AllPriced := by
  have escalated : s.escalateAll.AllPriced := by
    unfold State.escalateAll
    split
    · exact hs.mapRecords fun _ hr => hr.escalated
    · exact hs
  unfold State.rankerMinute State.coalesce
  split
  · exact .foldl (fun _ id ht => ht.sendChanged id) _ escalated
  · exact escalated

theorem State.AllPriced.closeWindow {s : State} (hs : s.AllPriced) (dayMinute a : Nat) :
    (s.closeWindow dayMinute a).AllPriced := by
  unfold State.closeWindow
  split
  · exact hs
  · next x hx =>
    split
    · exact hs
    · refine State.AllPriced.sample ?_ a
      exact hs.putAsset hx rfl

theorem State.AllPriced.closeWindows {s : State} (hs : s.AllPriced) : s.closeWindows.AllPriced := by
  unfold State.closeWindows
  split
  · exact .foldl (fun _ a ht => ht.closeWindow _ a) _ hs
  · exact hs

theorem State.AllPriced.stormMinute {s : State} (hs : s.AllPriced) : s.stormMinute.AllPriced := by
  unfold State.stormMinute
  split
  · dsimp only
    split <;> exact hs.of_eq rfl
  · exact hs.of_eq rfl

theorem State.AllPriced.lineSecond {s : State} (hs : s.AllPriced) (k : Fin 4) : (s.lineSecond k).AllPriced := by
  unfold State.lineSecond
  split
  · exact hs.of_eq rfl
  · exact hs

theorem State.AllPriced.tickWork {s : State} (hs : s.AllPriced) (w : TickWork) : (s.tickWork w).AllPriced := by
  cases w with
  | line k => exact hs.lineSecond k
  | beacon b => exact hs.of_eq rfl
  | ranker => exact hs.rankerMinute.settleBeacons
  | windows => exact hs.closeWindows.settleBeacons
  | storm => exact hs.stormMinute.settleBeacons

theorem State.AllPriced.doOwed {s : State} (hs : s.AllPriced) (w : TickWork) : (s.doOwed w).AllPriced := by
  have taken : (s.setOwed (s.owed.erase w)).AllPriced := hs.of_eq rfl
  unfold State.doOwed
  split
  · exact taken.tickWork w
  · exact hs

theorem State.AllPriced.finishOwed {s : State} (hs : s.AllPriced) : s.finishOwed.AllPriced := by
  unfold State.finishOwed
  split
  · exact hs
  · exact (State.AllPriced.foldl (fun _ w ht => ht.doOwed w) _ hs).of_eq rfl

theorem State.AllPriced.runOn {s : State} (hs : s.AllPriced) : s.runOn.AllPriced := by
  have ticked : (s.setTime s.time.minuteTick).AllPriced := hs.of_eq rfl
  have works : ∀ work ∈ [State.rankerMinute, State.closeWindows, State.stormMinute],
      ∀ t : State, t.AllPriced → (work t).AllPriced := by
    simp only [List.forall_mem_cons, List.not_mem_nil, false_imp_iff, implies_true, and_true]
    exact ⟨fun _ ht => ht.rankerMinute, fun _ ht => ht.closeWindows, fun _ ht => ht.stormMinute⟩
  have done := List.foldlRecOn (motive := State.AllPriced) _ (fun (t : State) (work : State → State) => work t) ticked
    fun t ht work hwork => works work ((freeOrder_perm s.freeCount _).mem_iff.1 hwork) t ht
  exact done.of_eq rfl

theorem State.AllPriced.takeTime {s : State} (hs : s.AllPriced) (dayMinute second : Nat) :
    (s.takeTime dayMinute second).AllPriced := by
  unfold State.takeTime
  dsimp only
  split
  · exact .gapEveryLoop (hs.runOn.settleBeacons.of_eq (t := State.setTime _ _) rfl)
  · exact .gapEveryLoop (hs.of_eq (t := State.setTime _ _) rfl)

/-! ## Line units (R25 to R36, R40, R41) -/

theorem State.AllPriced.advancePoll {s : State} (hs : s.AllPriced) (fuel : Nat) (k : Fin 4) :
    (advancePoll fuel k s).AllPriced := by
  induction fuel generalizing s with
  | zero => exact hs
  | succ f ih =>
    unfold Machine.advancePoll
    split
    · exact hs
    · dsimp only
      split
      · exact hs.of_eq rfl
      · split
        · exact hs.of_eq rfl
        · exact ih (hs.of_eq rfl)

theorem State.AllPriced.choosePolled {s : State} (hs : s.AllPriced) (k : Fin 4) : (s.choosePolled k).AllPriced := by
  unfold State.choosePolled
  split
  · exact hs.of_eq rfl
  · exact hs.of_eq rfl
  · exact hs.advancePoll _ k

theorem State.AllPriced.chooseException {s : State} (hs : s.AllPriced) (k : Fin 4) :
    (s.chooseException k).AllPriced := by
  unfold State.chooseException
  split
  · exact hs
  · exact hs.of_eq rfl
  · exact hs.of_eq rfl
  · split <;> exact hs.of_eq rfl

theorem State.AllPriced.silencePoints {s : State} (hs : s.AllPriced) (o : Nat) : (s.silencePoints o).AllPriced := by
  refine State.AllPriced.setPoints ?_ _
  refine hs.mapAssets fun a x => ?_
  split <;> rfl

theorem State.AllPriced.sampleLink {s : State} (hs : s.AllPriced) (x : Outstation) : (s.sampleLink x).AllPriced := by
  unfold State.sampleLink
  split
  · exact hs.sample _
  · exact hs

theorem State.AllPriced.failTransaction {s : State} (hs : s.AllPriced) (k : Fin 4) (o : Nat) :
    (s.failTransaction k o).AllPriced := by
  have ended : (s.setTransaction k none).AllPriced := hs.of_eq rfl
  unfold State.failTransaction
  dsimp only
  split
  · exact ended
  · split
    · refine State.AllPriced.sampleLink ?_ _
      exact ended.of_eq rfl
    · refine State.AllPriced.sampleLink (.silencePoints (.notify ?_ _) o) _
      exact ended.of_eq rfl

theorem State.AllPriced.dropTransaction {s : State} (hs : s.AllPriced) (t : Transaction) :
    (s.dropTransaction t).AllPriced := by
  unfold State.dropTransaction
  dsimp only
  split <;> exact hs.of_eq rfl

theorem State.AllPriced.haltLine {s : State} (hs : s.AllPriced) (k : Fin 4) : (s.haltLine k).AllPriced := by
  unfold State.haltLine
  dsimp only
  split
  · exact hs
  · refine State.AllPriced.adjustLine (.foldl (fun _ _ ht => ht.reply _ _ _) _ ?_) k _
    split
    · exact hs.dropTransaction _
    · exact hs

/-! ## Answers (R24, R47 to R51, R62) -/

theorem State.AllPriced.applyRecord {s : State} (hs : s.AllPriced) (o : Nat) (r : PointRecord) :
    (s.applyRecord o r).AllPriced := by
  unfold State.applyRecord
  dsimp only
  split
  · exact hs.of_eq rfl
  · next a b _ =>
    split
    · refine State.AllPriced.setPoints ?_ _
      exact hs.adjustAsset a fun _ => rfl
    · exact hs
  · exact hs.of_eq rfl
  · unfold State.createPlaceholder
    split <;> exact hs.of_eq rfl

theorem State.AllPriced.relayRecords {s : State} (hs : s.AllPriced) (o : Nat) (selection : List PointRecord) :
    (s.relayRecords o selection).AllPriced := by
  unfold State.relayRecords
  split
  · exact hs
  · exact hs.notify _

theorem State.AllPriced.takeIntoPoints {s : State} (hs : s.AllPriced) (o : Nat) (x : Outstation)
    (rs : List PointRecord) : (s.takeIntoPoints o x rs).AllPriced :=
  ((State.AllPriced.foldl (fun _ r ht => ht.applyRecord o r) rs hs).relayRecords o _).sampleAll _

theorem State.AllPriced.lineTakes {s : State} (hs : s.AllPriced) (k : Fin 4) (o : Nat) (x : Outstation)
    (ended : Option Transaction) : (s.lineTakes k o x ended).AllPriced := by
  unfold State.lineTakes
  dsimp only
  split <;> split <;> exact hs.of_eq rfl

theorem State.AllPriced.replyDelivered {s : State} (hs : s.AllPriced) (ended : Option Transaction) :
    (s.replyDelivered ended).AllPriced := by
  unfold State.replyDelivered
  split
  · split
    · exact hs.reply _ _ _
    · exact hs
  · exact hs

theorem State.AllPriced.takeAnswer {s : State} (hs : s.AllPriced) (k : Fin 4) (o : Nat) (x : Outstation)
    (rs : List PointRecord) : (s.takeAnswer k o x rs).AllPriced :=
  (((hs.lineTakes k o x _).takeIntoPoints o x rs).replyDelivered _).settleBeacons

theorem State.AllPriced.completeFrame {s : State} (hs : s.AllPriced) (k : Fin 4) (addr kind : Byte)
    (payload : List Byte) : (s.completeFrame k addr kind payload).AllPriced := by
  unfold State.completeFrame
  split
  · exact hs.of_eq rfl
  · split
    · exact hs.of_eq rfl
    · exact hs.takeAnswer k _ _ _

theorem State.AllPriced.fieldFrame {s : State} (hs : s.AllPriced) (k : Fin 4) (addr kind : Byte)
    (payload : List Byte) : (s.fieldFrame k addr kind payload).AllPriced := by
  have heard : (s.setReceived k []).AllPriced := hs.of_eq rfl
  unfold State.fieldFrame
  dsimp only
  split
  · exact hs
  · split
    · exact hs.of_eq rfl
    · exact heard.completeFrame k addr kind payload

theorem State.AllPriced.fieldBytes {s : State} (hs : s.AllPriced) (k : Fin 4) (bytes : List Byte) :
    (s.fieldBytes k bytes).AllPriced := by
  have heard : (s.setReceived k []).AllPriced := hs.of_eq rfl
  unfold State.fieldBytes
  split
  · exact hs
  · split
    · exact heard
    · split
      · exact hs.of_eq rfl
      · exact hs.of_eq rfl
      · exact hs.of_eq rfl
      · exact heard.completeFrame k _ _ _

/-! ## Directives over records, and modes (R115, R118, R137, R165, R175 to R177) -/

theorem State.AllPriced.acknowledge {s : State} (hs : s.AllPriced) (id : Nat) (r : FaultRecord) (console : Nat) :
    (s.acknowledge id r console).AllPriced := by
  unfold State.acknowledge
  split
  · refine State.AllPriced.settleBeacons (.sendChanged ?_ id)
    exact hs.adjustRecord id fun _ hr => hr
  · exact hs

theorem State.AllPriced.closeRecord {s : State} (hs : s.AllPriced) (id a : Nat) : (s.closeRecord id a).AllPriced := by
  refine State.AllPriced.settleBeacons (.clearRecord ?_ id a true)
  exact hs.adjustAsset a fun _ => rfl

theorem State.AllPriced.enterRun {s : State} (hs : s.AllPriced) (owed : Option ReplyTo) :
    (s.enterRun owed).AllPriced := by
  refine State.AllPriced.replyIfOwed ?_ owed .done
  exact hs.of_eq rfl

theorem State.AllPriced.zeroAbsorbed {s : State} (hs : s.AllPriced) : s.zeroAbsorbed.AllPriced :=
  hs.mapRecords fun r hr => s.priced_refreshed (r := { r with absorbed := 0 }) hr.2

theorem State.AllPriced.beginEntering {s : State} (hs : s.AllPriced) (owed : Option ReplyTo) :
    (s.beginEntering owed).AllPriced := by
  unfold State.beginEntering
  exact .zeroAbsorbed (.of_eq (.gapEveryLoop (hs.of_eq (t := State.fullDueEverywhere _) rfl)) rfl)

theorem State.AllPriced.startRun {s : State} (hs : s.AllPriced) (owed : Option ReplyTo) :
    (s.startRun owed).AllPriced := by
  unfold State.startRun
  refine State.AllPriced.settleBeacons ?_
  split
  · exact (hs.beginEntering owed).enterRun owed
  · exact hs.beginEntering owed

theorem State.AllPriced.endStorm {s : State} (hs : s.AllPriced) : s.endStorm.AllPriced := by
  unfold State.endStorm
  dsimp only
  split <;> exact hs.of_eq rfl

theorem State.AllPriced.leaveRun {s : State} (hs : s.AllPriced) : s.leaveRun.AllPriced :=
  (((((hs.of_eq (t := s.setMode .maintain) rfl).haltLine 0).haltLine 1).haltLine 2).haltLine 3).endStorm.settleBeacons

/-! ## Walks (R129 to R139) -/

theorem State.AllPriced.beginWalk {s : State} (hs : s.AllPriced) : s.beginWalk.AllPriced := by
  unfold State.beginWalk
  split
  · exact hs.of_eq rfl
  · exact hs

theorem State.AllPriced.setAbsorber {s : State} (hs : s.AllPriced) (d : Nat) (z : Option Nat) :
    (s.setAbsorber d z).AllPriced :=
  hs.adjustAsset d fun _ => rfl

theorem State.AllPriced.absorbAt {s : State} (hs : s.AllPriced) (a id d : Nat) : (s.absorbAt a id d).AllPriced := by
  unfold State.absorbAt
  split
  · exact hs
  · next x _ =>
    split
    · exact hs
    · extract_lets s1 s2 s3 s4
      have h1 : s1.AllPriced := hs.setAbsorber d (some a)
      have h2 : s2.AllPriced := by
        unfold s2
        split
        · exact h1.lowerOn _
        · exact h1
      have h3 : s3.AllPriced := by
        unfold s3
        split
        · exact h2.raiseOn a
        · exact h2
      have h4 : s4.AllPriced := by
        unfold s4
        split
        · exact h3.absorbRecord _ d id
        · exact h3
      split
      · exact h4.leaveWaiting d
      · exact h4

theorem State.AllPriced.releaseAt {s : State} (hs : s.AllPriced) (a d : Nat) : (s.releaseAt a d).AllPriced := by
  unfold State.releaseAt
  split
  · exact hs
  · split
    · split
      · next z _ =>
        have set := hs.setAbsorber d (some z)
        dsimp only
        split
        · exact set.raiseOn z
        · exact set
      · have set := hs.setAbsorber d none
        dsimp only
        split
        · exact set.openFault d
        · exact set
    · exact hs

theorem State.AllPriced.advanceWalk {s : State} (hs : s.AllPriced) (w : Walk) (cursor : List Nat) :
    (s.advanceWalk w cursor).AllPriced := hs.of_eq rfl

theorem State.AllPriced.absorbVisit {s : State} (hs : s.AllPriced) : s.absorbVisit.AllPriced := by
  have ended : (s.setWalk none).AllPriced := hs.of_eq rfl
  unfold State.absorbVisit
  split
  · split
    · split
      · exact ended
      · split
        · exact ended
        · split
          · exact ended
          · exact (hs.absorbAt _ _ _).advanceWalk _ _
    · exact hs
  · exact hs

theorem State.AllPriced.releaseVisit {s : State} (hs : s.AllPriced) : s.releaseVisit.AllPriced := by
  have ended : (s.setWalk none).AllPriced := hs.of_eq rfl
  unfold State.releaseVisit
  split
  · split
    · split
      · exact ended
      · split
        · exact ended
        · exact (hs.releaseAt _ _).advanceWalk _ _
    · exact hs
  · exact hs

theorem State.AllPriced.rebuildUnder {s : State} (hs : s.AllPriced) (v h : Nat) (x : Asset) :
    (s.rebuildUnder v h x).AllPriced := by
  unfold State.rebuildUnder
  extract_lets s1 s2
  have h1 : s1.AllPriced := by
    unfold s1
    split
    · exact hs.absorbRecord _ v _
    · exact hs
  have h2 : s2.AllPriced := by
    unfold s2
    split
    · exact h1.leaveWaiting v
    · exact h1
  split
  · exact h2.raiseOn h
  · exact h2

theorem State.AllPriced.rebuildAt {s : State} (hs : s.AllPriced) (v : Nat) : (s.rebuildAt v).AllPriced := by
  have set := hs.setAbsorber v (s.highestHolder v)
  unfold State.rebuildAt
  split
  · exact hs
  · dsimp only
    split
    · exact set.rebuildUnder v _ _
    · split
      · exact set.openFault v
      · exact set

theorem State.AllPriced.rebuildVisit {s : State} (hs : s.AllPriced) : s.rebuildVisit.AllPriced := by
  unfold State.rebuildVisit
  split
  · split
    · exact hs.enterRun _
    · next v _ =>
      have visited (b : Option Rebuild) : ((s.rebuildAt v).setRebuild b).AllPriced := (hs.rebuildAt v).of_eq rfl
      dsimp only
      split
      · exact (visited _).enterRun _
      · exact visited _
  · exact hs

end Sys2Proof.Machine
end

section
/-! PROOFS. The LOAD and ERASE of each table (R186) keep every record priced. Two of them change what a record's U is
computed from: a new configuration of its asset, and a new fault profile (R145). -/

namespace Sys2Proof.Machine

/-! ## ASSET (R10, R12) -/

/-- Under the law of the fault table a record's asset names the record. -/
theorem State.FaultLaw.faultIdOf_asset {s : State} (hl : s.FaultLaw) {e : Nat × FaultRecord} (he : e ∈ s.records) :
    s.faultIdOf e.2.asset = some e.1 := by
  obtain ⟨-, hnamed, -⟩ := hl
  obtain ⟨-, -, x, hx, hid⟩ := hnamed e he
  rw [State.faultIdOf, hx, Option.bind_some, hid]

theorem State.Priced.putAsset_of_ne {s : State} {r : FaultRecord} (hr : s.Priced r) {a : Nat} (h : r.asset ≠ a)
    (y : Asset) : (s.putAsset a y).Priced r :=
  ⟨fun x hx => hr.1 x ((State.asset?_putAsset_of_ne s y h).symm.trans hx), hr.2⟩

/-- Whatever is put in the place of an asset, a record that the asset does not name stays priced: it is another's. -/
theorem State.AllPriced.priced_putAsset {s : State} (hs : s.AllPriced) (hl : s.FaultLaw) {a : Nat} (y : Asset)
    {e : Nat × FaultRecord} (he : e ∈ s.records) (hid : s.faultIdOf a ≠ some e.1) : (s.putAsset a y).Priced e.2 :=
  (hs e he).putAsset_of_ne (fun ha => hid ((congrArg s.faultIdOf ha).symm.trans (hl.faultIdOf_asset he))) y

/-- A new asset holds no record. -/
theorem State.AllPriced.putAsset_of_absent {s : State} (hs : s.AllPriced) (hl : s.FaultLaw) {a : Nat}
    (h : s.asset? a = none) (y : Asset) : (s.putAsset a y).AllPriced := fun e he =>
  hs.priced_putAsset hl y he (by simp [State.faultIdOf, h])

/-- An asset's record is the one record whose inputs change with the asset, and it is recomputed. -/
theorem State.AllPriced.refreshOn_putAsset {s : State} (hs : s.AllPriced) (hl : s.FaultLaw) {a : Nat} {y : Asset}
    (hy : s.faultIdOf a = y.faultId) : ((s.putAsset a y).refreshOn a).AllPriced := by
  have hid : (s.putAsset a y).faultIdOf a = s.faultIdOf a := by
    rw [State.faultIdOf, State.asset?_putAsset_self, Option.bind_some, hy]
  have others (e) (he : e ∈ s.records) := hs.priced_putAsset (a := a) hl y he
  intro e he
  refine State.Priced.of_sameTerms (s := s.putAsset a y) ?_ (faultFrame_refreshOn _ a).sameTerms
  unfold State.refreshOn State.onRecordOf at he
  rw [hid] at he
  split at he
  · next id hheld =>
    rcases Table.mem_adjust he with ⟨he, hne⟩ | ⟨r, hr, rfl⟩
    · exact others e he fun h => hne (Option.some.inj (h.symm.trans hheld))
    · exact State.priced_refreshed _ (hs (id, r) hr).2
  · next hnone => exact others e he (by simp [hnone])

theorem State.AllPriced.storeAsset {s : State} (hs : s.AllPriced) (hl : s.FaultLaw) (a : Nat) (config : AssetConfig) :
    (s.storeAsset a config).AllPriced := by
  unfold State.storeAsset
  split
  · next habsent => exact hs.putAsset_of_absent hl habsent _
  · next x hx =>
    dsimp only
    split
    · refine State.AllPriced.settleBeacons (hs.refreshOn_putAsset hl ?_)
      rw [State.faultIdOf, hx, Option.bind_some, State.reconfigured]
    · next hsame =>
      obtain ⟨hweight, hprofile⟩ := not_or.1 hsame
      exact hs.putAsset hx (Prod.ext (not_not.1 hweight).symm (not_not.1 hprofile).symm)

/-- An erased asset leaves the law with fewer assets to hold for. -/
theorem State.AllPriced.delAsset {s : State} (hs : s.AllPriced) (a : Nat) :
    (s.setAssets (s.assets.del a)).AllPriced := by
  refine fun e he => ⟨fun x hx => ?_, (hs e he).2⟩
  by_cases ha : e.2.asset = a
  · have hnone : (s.assets.del a).get? e.2.asset = none := ha ▸ Table.get?_del_self _ _
    cases hnone.symm.trans hx
  · exact (hs e he).1 x ((Table.get?_del_of_ne s.assets ha).symm.trans hx)

/-! ## FAULT-PROFILE and LOOP-PROFILE (R67, R81) -/

/-- A record whose asset names another fault profile keeps its inputs. -/
theorem State.Priced.setFaultProfiles_of_ne {s : State} {r : FaultRecord} (hr : s.Priced r) {p : Fin 16}
    (hp : ∀ x ∈ s.asset? r.asset, x.config.faultProfile ≠ p) (new : FaultProfile) :
    (s.setFaultProfiles (s.faultProfiles.set p.val new p.isLt)).Priced r := by
  refine ⟨fun x hx => ?_, hr.2⟩
  have hget : (s.faultProfiles.set p.val new p.isLt).get x.config.faultProfile
      = s.faultProfiles.get x.config.faultProfile :=
    Vector.getElem_set_ne _ _ fun h => hp x hx (Fin.ext h.symm)
  exact (hr.1 x hx).trans (by rw [State.faultProfile, State.faultProfile, State.setFaultProfiles_faultProfiles, hget])

/-- The records of the assets that name the profile are recomputed, and the others keep their inputs (R67). -/
theorem State.AllPriced.storeFaultProfile {s : State} (hs : s.AllPriced) (p : Fin 16) (new : FaultProfile) :
    (s.storeFaultProfile p new).AllPriced := by
  unfold State.storeFaultProfile
  extract_lets t
  have terms : SameTerms (s.setFaultProfiles (s.faultProfiles.set p.val new p.isLt)) t :=
    sameTerms_mapAssets _ fun _ x => by split <;> rfl
  refine State.AllPriced.settleBeacons fun e he => ?_
  obtain ⟨⟨id, r⟩, hr, rfl⟩ := List.mem_map.1 he
  have hold : s.Priced r := hs (id, r) hr
  refine State.Priced.of_sameTerms (s := t) ?_ (faultFrame_setRecords t _).sameTerms
  dsimp only
  split
  · next x hx =>
    split
    · exact t.priced_refreshed hold.2
    · next hne =>
      refine (hold.setFaultProfiles_of_ne (fun y hy hp => hne ?_) new).of_sameTerms terms
      exact (congrArg Prod.snd (terms.terms_eq hy hx)).trans hp
  · next habsent => exact ⟨fun x hx => by simp [habsent] at hx, hold.2⟩

theorem State.AllPriced.storeLoopProfile {s : State} (hs : s.AllPriced) (p : Fin 8) (new : LoopProfile) :
    (s.storeLoopProfile p new).AllPriced := by
  have set : (s.setLoopProfiles (s.loopProfiles.set p.val new p.isLt)).AllPriced := hs.of_eq rfl
  refine set.mapAssets fun _ x => ?_
  split <;> rfl

/-! ## What a taken LOAD or ERASE does -/

section
variable {fs : List Byte} {s t : State}

theorem assetLoad_ok (h : assetLoad fs s = .ok t) : ∃ a config, t = s.storeAsset a config := by
  unfold assetLoad at h
  repeat' split at h
  all_goals cases h
  exact ⟨_, _, rfl⟩

theorem assetErase_ok (h : assetErase fs s = .ok t) : t = s ∨ ∃ a, t = s.setAssets (s.assets.del a) := by
  unfold assetErase at h
  repeat' split at h
  all_goals cases h
  · exact .inl rfl
  · exact .inr ⟨_, rfl⟩

theorem faultProfileLoad_ok (h : faultProfileLoad fs s = .ok t) : ∃ p new, t = s.storeFaultProfile p new := by
  unfold faultProfileLoad at h
  repeat' split at h
  all_goals cases h
  exact ⟨_, _, rfl⟩

theorem faultProfileErase_ok (h : faultProfileErase fs s = .ok t) : ∃ p, t = s.storeFaultProfile p .powerOn := by
  unfold faultProfileErase at h
  repeat' split at h
  all_goals cases h
  exact ⟨_, rfl⟩

theorem loopProfileLoad_ok (h : loopProfileLoad fs s = .ok t) : ∃ p new, t = s.storeLoopProfile p new := by
  unfold loopProfileLoad at h
  repeat' split at h
  all_goals cases h
  exact ⟨_, _, rfl⟩

theorem loopProfileErase_ok (h : loopProfileErase fs s = .ok t) : ∃ p, t = s.storeLoopProfile p .powerOn := by
  unfold loopProfileErase at h
  repeat' split at h
  all_goals cases h
  exact ⟨_, rfl⟩

end

/-- The LOADs and ERASEs of the tables that no urgency is computed from: PART, LINE, OUTSTATION, POINT, STORM, BEACON. -/
def editsBesideAssets : List (List Byte → State → Except ReplyCode State) :=
  [partLoad, lineLoad, outstationLoad, pointLoad, stormLoad, beaconLoad,
    partErase, lineErase, outstationErase, pointErase, stormErase, beaconErase]

/-- They leave assets, fault profiles and records. -/
theorem editsBesideAssets_ok {edit : List Byte → State → Except ReplyCode State} (hedit : edit ∈ editsBesideAssets)
    {fs : List Byte} {s t : State} (h : edit fs s = .ok t) :
    (t.assets, t.faultProfiles, t.records) = (s.assets, s.faultProfiles, s.records) := by
  simp only [editsBesideAssets, List.mem_cons, List.not_mem_nil, or_false] at hedit
  rcases hedit with rfl | rfl | rfl | rfl | rfl | rfl | rfl | rfl | rfl | rfl | rfl | rfl
  all_goals
    simp only [partLoad, lineLoad, outstationLoad, pointLoad, stormLoad, beaconLoad, partErase, lineErase,
      outstationErase, pointErase, stormErase, beaconErase] at h
    repeat' split at h
    all_goals cases h
    all_goals rfl

end Sys2Proof.Machine
end

section
/-! PROOFS. Every command keeps every record priced, and so does every step (R143). What a command's shape contributes is
said once, for any property of states that replies keep. -/

namespace Sys2Proof.Machine

/-! ## The shapes of commands -/

/-- Whatever next state the outcome answers has the property. -/
def NextMeets (P : State → Prop) (o : Host.Outcome State Fault Refusal) : Prop := ∀ t, o = .next t → P t

/-- Replies keep the property. -/
def KeptByReplies (P : State → Prop) : Prop :=
  ∀ (s : State) (dest : ReplyTo) (code : ReplyCode) (data : List Byte), P s → P (s.reply dest code data)

section
variable {P : State → Prop} {s : State}

theorem nextMeets_next (h : P s) : NextMeets P (.next s) := fun _ ht => Host.Outcome.next.inj ht ▸ h

theorem nextMeets_unlessHeld (hs : P s) {f : State → State} (hf : P (f s)) : NextMeets P (unlessHeld s f) := by
  refine nextMeets_next ?_
  split
  · exact hs
  · exact hf

theorem nextMeets_directive (hs : P s) {addr tag : Byte} {f : ReplyTo → State → State} (hf : ∀ dest, P (f dest s)) :
    NextMeets P (directive addr tag s f) := by
  refine nextMeets_unlessHeld hs ?_
  split
  · exact hf _
  · exact hs

theorem nextMeets_groupDirective (hs : P s) {addr tag : Byte} {f : Option ReplyTo → State → State}
    (hf : ∀ dest, P (f dest s)) : NextMeets P (groupDirective addr tag s f) := by
  refine nextMeets_unlessHeld hs ?_
  split
  · exact hf _
  · split
    · exact hf none
    · exact hs

theorem KeptByReplies.answer (hP : KeptByReplies P) (hs : P s) {result : Except ReplyCode State}
    (hr : ∀ t, result = .ok t → P t) (dest : ReplyTo) : P (s.answer dest result) := by
  cases result with
  | error code => exact hP s dest code [] hs
  | ok t => exact hP t dest .done [] (hr t rfl)

theorem KeptByReplies.report (hP : KeptByReplies P) (hs : P s) (dest : ReplyTo) (result : Except ReplyCode (List Byte)) :
    P (s.report dest result) := by
  cases result with
  | error code => exact hP s dest code [] hs
  | ok data => exact hP s dest .done data hs

theorem KeptByReplies.tableEdit (hP : KeptByReplies P) (hs : P s) {addr : Byte} {req : CodedRequest}
    {edit : List Byte → State → Except ReplyCode State} (hedit : ∀ fs t, edit fs s = .ok t → P t) :
    NextMeets P (tableEdit addr req s edit) := by
  refine nextMeets_directive hs fun dest => ?_
  split
  · exact hP s dest .busy [] hs
  · split
    · exact hP s dest .badEntry [] hs
    · exact hP.answer hs (hedit _) dest

theorem KeptByReplies.tableRead (hP : KeptByReplies P) (hs : P s) {addr : Byte} {req : CodedRequest}
    {read : List Byte → State → Except ReplyCode (List Byte)} : NextMeets P (tableRead addr req s read) := by
  refine nextMeets_directive hs fun dest => ?_
  split
  · exact hP s dest .badEntry [] hs
  · exact hP.report hs dest _

end

theorem allPriced_keptByReplies : KeptByReplies State.AllPriced := fun _ dest code data hs => hs.reply dest code data

/-! ## LOAD, ERASE and READ -/

section
variable {s : State} {addr : Byte} {req : CodedRequest}

theorem State.AllPriced.tableRead (hs : s.AllPriced) {read : List Byte → State → Except ReplyCode (List Byte)} :
    NextMeets State.AllPriced (tableRead addr req s read) := allPriced_keptByReplies.tableRead hs

theorem State.AllPriced.editBesideAssets (hs : s.AllPriced) {edit : List Byte → State → Except ReplyCode State}
    (hedit : edit ∈ editsBesideAssets) : NextMeets State.AllPriced (tableEdit addr req s edit) :=
  allPriced_keptByReplies.tableEdit hs fun _ _ ht => hs.of_eq (editsBesideAssets_ok hedit ht)

theorem State.AllPriced.execAssetLoad (hs : s.AllPriced) (hl : s.FaultLaw) :
    NextMeets State.AllPriced (execAssetLoad addr req s) :=
  allPriced_keptByReplies.tableEdit hs fun _ _ ht => by
    obtain ⟨a, config, rfl⟩ := assetLoad_ok ht
    exact hs.storeAsset hl a config

theorem State.AllPriced.execAssetErase (hs : s.AllPriced) : NextMeets State.AllPriced (execAssetErase addr req s) :=
  allPriced_keptByReplies.tableEdit hs fun _ _ ht => by
    obtain rfl | ⟨a, rfl⟩ := assetErase_ok ht
    · exact hs
    · exact hs.delAsset a

theorem State.AllPriced.execFaultProfileLoad (hs : s.AllPriced) :
    NextMeets State.AllPriced (execFaultProfileLoad addr req s) :=
  allPriced_keptByReplies.tableEdit hs fun _ _ ht => by
    obtain ⟨p, new, rfl⟩ := faultProfileLoad_ok ht
    exact hs.storeFaultProfile p new

theorem State.AllPriced.execFaultProfileErase (hs : s.AllPriced) :
    NextMeets State.AllPriced (execFaultProfileErase addr req s) :=
  allPriced_keptByReplies.tableEdit hs fun _ _ ht => by
    obtain ⟨p, rfl⟩ := faultProfileErase_ok ht
    exact hs.storeFaultProfile p .powerOn

theorem State.AllPriced.execLoopProfileLoad (hs : s.AllPriced) :
    NextMeets State.AllPriced (execLoopProfileLoad addr req s) :=
  allPriced_keptByReplies.tableEdit hs fun _ _ ht => by
    obtain ⟨p, new, rfl⟩ := loopProfileLoad_ok ht
    exact hs.storeLoopProfile p new

theorem State.AllPriced.execLoopProfileErase (hs : s.AllPriced) :
    NextMeets State.AllPriced (execLoopProfileErase addr req s) :=
  allPriced_keptByReplies.tableEdit hs fun _ _ ht => by
    obtain ⟨p, rfl⟩ := loopProfileErase_ok ht
    exact hs.storeLoopProfile p .powerOn

end

/-! ## Other directives -/

section
variable {s : State} {addr : Byte}

theorem State.AllPriced.execList (hs : s.AllPriced) {req : Request} :
    NextMeets State.AllPriced (execList addr req s) := by
  refine nextMeets_directive hs fun dest => ?_
  exact allPriced_keptByReplies.report hs dest _

theorem State.AllPriced.execUnknownKind (hs : s.AllPriced) (kind : Byte) {req : Request} :
    NextMeets State.AllPriced (execUnknownKind addr kind req s) := by
  refine nextMeets_directive hs fun dest => ?_
  exact hs.reply dest _ _

theorem State.AllPriced.execAck (hs : s.AllPriced) {req : Request} : NextMeets State.AllPriced (execAck addr req s) := by
  refine nextMeets_directive hs (allPriced_keptByReplies.answer hs fun t ht => ?_)
  unfold ackFault at ht
  repeat' split at ht
  all_goals cases ht
  exact hs.acknowledge _ _ _

theorem State.AllPriced.execClose (hs : s.AllPriced) {req : Request} :
    NextMeets State.AllPriced (execClose addr req s) := by
  refine nextMeets_directive hs (allPriced_keptByReplies.answer hs fun t ht => ?_)
  unfold closeFault at ht
  repeat' split at ht
  all_goals cases ht
  exact hs.closeRecord _ _

theorem State.AllPriced.execTime (hs : s.AllPriced) {req : Request} : NextMeets State.AllPriced (execTime addr req s) := by
  refine nextMeets_groupDirective hs fun dest => ?_
  dsimp only
  split
  · exact hs.replyIfOwed dest .badEntry
  · exact (hs.finishOwed.takeTime _ _).replyIfOwed dest .done

theorem State.AllPriced.execModeRun (hs : s.AllPriced) {req : CodedRequest} :
    NextMeets State.AllPriced (execModeRun addr req s) := by
  refine nextMeets_groupDirective hs fun dest => ?_
  split
  · exact hs.replyIfOwed dest .busy
  · exact hs.replyIfOwed dest .badEntry
  · exact hs.replyIfOwed dest .done
  · exact hs.finishOwed.startRun dest

theorem State.AllPriced.execModeMaintain (hs : s.AllPriced) {req : CodedRequest} :
    NextMeets State.AllPriced (execModeMaintain addr req s) := by
  refine nextMeets_groupDirective hs fun dest => ?_
  split
  · exact hs.replyIfOwed dest .busy
  · exact hs.replyIfOwed dest .badEntry
  · exact hs.replyIfOwed dest .done
  · exact hs.finishOwed.leaveRun.replyIfOwed dest .done

/-- A restart that is taken leaves no record. -/
theorem State.AllPriced.execRestartRuntime (hs : s.AllPriced) {req : CodedRequest} :
    NextMeets State.AllPriced (execRestartRuntime addr req s) := by
  refine nextMeets_groupDirective hs fun dest => ?_
  split
  · exact hs.replyIfOwed dest .badEntry
  · exact State.allPriced_of_nil rfl

theorem State.AllPriced.execRestartFull (hs : s.AllPriced) {req : CodedRequest} :
    NextMeets State.AllPriced (execRestartFull addr req s) := by
  refine nextMeets_groupDirective hs fun dest => ?_
  split
  · exact hs.replyIfOwed dest .badEntry
  · exact State.allPriced_of_nil rfl

theorem State.AllPriced.execDownlink (hs : s.AllPriced) {req : Request} :
    NextMeets State.AllPriced (execDownlink addr req s) := by
  refine nextMeets_directive hs fun dest => ?_
  split
  · exact hs.reply dest _ []
  · next t ht =>
    simp only [downlink] at ht
    repeat' split at ht
    all_goals cases ht
    exact hs.adjustLine _ _

theorem State.AllPriced.execResync (hs : s.AllPriced) {req : Request} :
    NextMeets State.AllPriced (execResync addr req s) := by
  refine nextMeets_directive hs (allPriced_keptByReplies.answer hs fun t ht => ?_)
  unfold resync at ht
  repeat' split at ht
  all_goals cases ht
  exact hs.of_eq rfl

theorem State.AllPriced.execBeaconReset (hs : s.AllPriced) {req : Request} :
    NextMeets State.AllPriced (execBeaconReset addr req s) := by
  refine nextMeets_directive hs (allPriced_keptByReplies.answer hs fun t ht => ?_)
  unfold beaconReset at ht
  split at ht <;> cases ht
  exact hs.of_eq rfl

theorem State.AllPriced.execStatus (hs : s.AllPriced) {req : StatusRequest} :
    NextMeets State.AllPriced (execStatus addr req s) := by
  refine nextMeets_directive hs fun dest => ?_
  split <;> exact hs.reply dest _ _

theorem State.AllPriced.execStatusClear (hs : s.AllPriced) {req : StatusRequest} :
    NextMeets State.AllPriced (execStatusClear addr req s) := by
  refine nextMeets_directive hs fun dest => ?_
  split
  · refine State.AllPriced.reply ?_ dest _ _
    exact hs.of_eq rfl
  · exact hs.reply dest _ _

end

/-! ## The line units -/

section
variable {s : State} (k : Fin 4)

theorem State.AllPriced.execPollChoose (hs : s.AllPriced) : NextMeets State.AllPriced (execPollChoose k s) := by
  refine nextMeets_unlessHeld hs ?_
  split
  · exact hs.choosePolled k
  · exact hs

theorem State.AllPriced.execExceptionChoose (hs : s.AllPriced) :
    NextMeets State.AllPriced (execExceptionChoose k s) := by
  refine nextMeets_unlessHeld hs ?_
  split
  · exact hs.chooseException k
  · exact hs

theorem State.AllPriced.execSweepSent (hs : s.AllPriced) : NextMeets State.AllPriced (execSweepSent k s) := by
  refine nextMeets_unlessHeld hs ?_
  split
  · split
    · exact hs.adjustLine k _
    · exact hs
  · exact hs

theorem State.AllPriced.execOrderSent (hs : s.AllPriced) : NextMeets State.AllPriced (execOrderSent k s) := by
  refine nextMeets_unlessHeld hs ?_
  split
  · split
    · exact hs.adjustLine k _
    · exact hs
  · exact hs

theorem State.AllPriced.execSweepTimeout (hs : s.AllPriced) : NextMeets State.AllPriced (execSweepTimeout k s) := by
  have counted : (s.countOn k .timeout).AllPriced := hs.of_eq rfl
  refine nextMeets_unlessHeld hs ?_
  split
  · split
    · split
      · exact counted.of_eq rfl
      · exact (counted.failTransaction k _).settleBeacons
    · exact hs
  · exact hs

theorem State.AllPriced.execOrderTimeout (hs : s.AllPriced) : NextMeets State.AllPriced (execOrderTimeout k s) := by
  refine nextMeets_unlessHeld hs ?_
  split
  · split
    · exact hs.of_eq rfl
    · exact hs
  · exact hs

theorem State.AllPriced.execTally (hs : s.AllPriced) {addr : Byte} {payload : List Byte} :
    NextMeets State.AllPriced (execTally k addr payload s) := by
  refine nextMeets_unlessHeld hs ?_
  exact hs.fieldFrame k addr _ payload

theorem State.AllPriced.execQuiet (hs : s.AllPriced) {addr : Byte} {payload : List Byte} :
    NextMeets State.AllPriced (execQuiet k addr payload s) := by
  refine nextMeets_unlessHeld hs ?_
  exact hs.fieldFrame k addr _ payload

theorem State.AllPriced.execFieldFrameDiscard (hs : s.AllPriced) {bytes : List Byte} :
    NextMeets State.AllPriced (execFieldFrameDiscard k bytes s) := by
  refine nextMeets_unlessHeld hs ?_
  exact hs.fieldBytes k bytes

theorem State.AllPriced.execStray (hs : s.AllPriced) {addr kind : Byte} {payload : List Byte} :
    NextMeets State.AllPriced (execStray k addr kind payload s) := by
  refine nextMeets_unlessHeld hs ?_
  exact hs.fieldFrame k addr kind payload

end

/-! ## The trunk unit, the time base and the walks -/

section
variable {s : State}

theorem State.AllPriced.execTrunkCheckFail (hs : s.AllPriced) (cause : TrunkDiscard) :
    NextMeets State.AllPriced (execTrunkCheckFail cause s) := by
  refine nextMeets_unlessHeld hs ?_
  exact hs.of_eq rfl

theorem State.AllPriced.execTrunkFrameIgnored (hs : s.AllPriced) (addr kind : Byte) :
    NextMeets State.AllPriced (execTrunkFrameIgnored addr kind s) := by
  refine nextMeets_unlessHeld hs ?_
  exact hs

theorem State.AllPriced.execTransmitBegin (hs : s.AllPriced) :
    NextMeets State.AllPriced (execTransmitBegin s) := by
  refine nextMeets_unlessHeld hs ?_
  exact hs.of_eq rfl

theorem State.AllPriced.execTransmitComplete (hs : s.AllPriced) :
    NextMeets State.AllPriced (execTransmitComplete s) := by
  refine nextMeets_unlessHeld hs ?_
  exact hs.of_eq rfl

theorem State.AllPriced.execSecondTick (hs : s.AllPriced) :
    NextMeets State.AllPriced (execSecondTick s) := by
  refine nextMeets_unlessHeld hs ?_
  exact hs.finishOwed.of_eq rfl

theorem State.AllPriced.execMinuteTick (hs : s.AllPriced) :
    NextMeets State.AllPriced (execMinuteTick s) := by
  refine nextMeets_unlessHeld hs ?_
  exact hs.finishOwed.of_eq rfl

theorem State.AllPriced.execWalkBegin (hs : s.AllPriced) :
    NextMeets State.AllPriced (execWalkBegin s) := by
  refine nextMeets_unlessHeld hs ?_
  exact hs.beginWalk

theorem State.AllPriced.execAbsorbVisit (hs : s.AllPriced) :
    NextMeets State.AllPriced (execAbsorbVisit s) := by
  refine nextMeets_unlessHeld hs ?_
  exact hs.absorbVisit.settleBeacons

theorem State.AllPriced.execReleaseVisit (hs : s.AllPriced) :
    NextMeets State.AllPriced (execReleaseVisit s) := by
  refine nextMeets_unlessHeld hs ?_
  exact hs.releaseVisit.settleBeacons

theorem State.AllPriced.execRebuildVisit (hs : s.AllPriced) : NextMeets State.AllPriced (execRebuildVisit s) := by
  refine nextMeets_unlessHeld hs (State.AllPriced.settleBeacons (.rebuildVisit ?_))
  split
  · exact hs.finishOwed
  · exact hs

end

/-! ## Every command, and the step -/

theorem State.AllPriced.exec {s : State} (hs : s.AllPriced) (hl : s.FaultLaw) (c : Instr) :
    NextMeets State.AllPriced (exec c s) := by
  have edits : ∀ edit ∈ editsBesideAssets, ∀ addr req, NextMeets State.AllPriced (tableEdit addr req s edit) :=
    fun _ hedit _ _ => hs.editBesideAssets hedit
  simp only [editsBesideAssets, List.forall_mem_cons] at edits
  obtain ⟨hpartLoad, hlineLoad, houtstationLoad, hpointLoad, hstormLoad, hbeaconLoad, hpartErase, hlineErase,
    houtstationErase, hpointErase, hstormErase, hbeaconErase, -⟩ := edits
  cases c with
  | partLoad addr req => exact hpartLoad addr req
  | lineLoad addr req => exact hlineLoad addr req
  | outstationLoad addr req => exact houtstationLoad addr req
  | assetLoad addr req => exact hs.execAssetLoad hl
  | pointLoad addr req => exact hpointLoad addr req
  | faultProfileLoad addr req => exact hs.execFaultProfileLoad
  | loopProfileLoad addr req => exact hs.execLoopProfileLoad
  | stormLoad addr req => exact hstormLoad addr req
  | beaconLoad addr req => exact hbeaconLoad addr req
  | partErase addr req => exact hpartErase addr req
  | lineErase addr req => exact hlineErase addr req
  | outstationErase addr req => exact houtstationErase addr req
  | assetErase addr req => exact hs.execAssetErase
  | pointErase addr req => exact hpointErase addr req
  | faultProfileErase addr req => exact hs.execFaultProfileErase
  | loopProfileErase addr req => exact hs.execLoopProfileErase
  | stormErase addr req => exact hstormErase addr req
  | beaconErase addr req => exact hbeaconErase addr req
  | partRead addr req => exact hs.tableRead
  | lineRead addr req => exact hs.tableRead
  | outstationRead addr req => exact hs.tableRead
  | assetRead addr req => exact hs.tableRead
  | pointRead addr req => exact hs.tableRead
  | faultProfileRead addr req => exact hs.tableRead
  | loopProfileRead addr req => exact hs.tableRead
  | stormRead addr req => exact hs.tableRead
  | beaconRead addr req => exact hs.tableRead
  | list addr req => exact hs.execList
  | faultById addr req => exact hs.tableRead
  | faultByAsset addr req => exact hs.tableRead
  | ack addr req => exact hs.execAck
  | close addr req => exact hs.execClose
  | time addr req => exact hs.execTime
  | modeRun addr req => exact hs.execModeRun
  | modeMaintain addr req => exact hs.execModeMaintain
  | restartRuntime addr req => exact hs.execRestartRuntime
  | restartFull addr req => exact hs.execRestartFull
  | downlink addr req => exact hs.execDownlink
  | resync addr req => exact hs.execResync
  | beaconReset addr req => exact hs.execBeaconReset
  | status addr req => exact hs.execStatus
  | statusClear addr req => exact hs.execStatusClear
  | unknownKind addr kind req => exact hs.execUnknownKind kind
  | trunkCheckFail cause => exact hs.execTrunkCheckFail cause
  | trunkFrameIgnored addr kind => exact hs.execTrunkFrameIgnored addr kind
  | powerOn => exact nextMeets_next (State.allPriced_of_nil rfl)
  | transmitBegin => exact hs.execTransmitBegin
  | transmitComplete => exact hs.execTransmitComplete
  | tally line addr payload => exact hs.execTally line
  | quiet line addr payload => exact hs.execQuiet line
  | fieldFrameDiscard line bytes => exact hs.execFieldFrameDiscard line
  | stray line addr kind payload => exact hs.execStray line
  | pollChoose line => exact hs.execPollChoose line
  | exceptionChoose line => exact hs.execExceptionChoose line
  | sweepSent line => exact hs.execSweepSent line
  | orderSent line => exact hs.execOrderSent line
  | sweepTimeout line => exact hs.execSweepTimeout line
  | orderTimeout line => exact hs.execOrderTimeout line
  | secondTick => exact hs.execSecondTick
  | minuteTick => exact hs.execMinuteTick
  | lineSecondWork line => exact nextMeets_unlessHeld hs (hs.doOwed _)
  | beaconStretchTick beacon => exact nextMeets_unlessHeld hs (hs.doOwed _)
  | rankerMinuteEvent => exact nextMeets_unlessHeld hs (hs.doOwed _)
  | windowCloseEvent => exact nextMeets_unlessHeld hs (hs.doOwed _)
  | stormMinuteEvent => exact nextMeets_unlessHeld hs (hs.doOwed _)
  | walkBegin => exact hs.execWalkBegin
  | absorbVisit => exact hs.execAbsorbVisit
  | releaseVisit => exact hs.execReleaseVisit
  | rebuildVisit => exact hs.execRebuildVisit
  | resetInputActive => exact nextMeets_next (hs.of_eq rfl)

theorem State.AllPriced.step {s t : State} (hs : s.AllPriced) (hl : s.FaultLaw) (h : step s = .next t) :
    t.AllPriced := by
  cases hp : s.pending with
  | nil =>
    rw [step_nil hp] at h
    exact Host.Outcome.next.inj h ▸ hs
  | cons c rest =>
    rw [step_cons hp] at h
    have taken : (s.setPending rest).AllPriced := hs.of_eq rfl
    exact taken.exec hl c t h

/-- Settles O59: the formula is the model's own, and a step keeps every record priced. -/
theorem urgencyLawKept : Obligations.UrgencyLawKept := by
  refine ⟨fun p w n steps => ⟨rfl, rfl⟩, fun s t _ hl hlaw hsteps hstep => ?_⟩
  exact t.allPriced_iff.1 ((s.allPriced_iff.2 ⟨hlaw, hsteps⟩).step hl hstep)

end Sys2Proof.Machine
end

section
/-! PROOFS. An arrival at the transmit queue (R188, R189): the frame the discard rule displaces, the newest of the
lowest class, is the one frame that no older frame goes below and every newer frame is above. -/

namespace Sys2Proof.Machine

/-! ## The lowest class and its newest frame -/

/-- No waiting frame is below the lowest class. -/
theorem lowestRank_le {waiting : List TrunkFrame} {f : TrunkFrame} (hf : f ∈ waiting) :
    lowestRank waiting ≤ f.body.rank :=
  List.min_le_of_mem (l := 2 :: waiting.map fun f => f.body.rank) (List.mem_cons_of_mem _ (List.mem_map_of_mem hf))

/-- A waiting frame that no other goes below is of the lowest class. -/
theorem lowestRank_eq {waiting : List TrunkFrame} {g : TrunkFrame} (hg : g ∈ waiting)
    (hle : ∀ h ∈ waiting, g.body.rank ≤ h.body.rank) : lowestRank waiting = g.body.rank := by
  refine le_antisymm (lowestRank_le hg) (not_lt.1 fun hlt => ?_)
  obtain ⟨h, hmem, heq⟩ := exists_lowestRank (lt_of_lt_of_le hlt g.body.rank_le)
  exact absurd (hle h hmem) (not_le.2 (heq ▸ hlt))

/-- The frame discarded of a class is the one with no newer frame of that class behind it. -/
theorem dropNewest_append_cons {older newer : List TrunkFrame} {g : TrunkFrame}
    (hnewer : ∀ h ∈ newer, h.body.rank ≠ g.body.rank) :
    dropNewest g.body.rank (older ++ g :: newer) = older ++ newer := by
  have hpass : ∀ h ∈ newer.reverse, ¬(h.body.rank == g.body.rank) = true := by simpa using hnewer
  simp [dropNewest, List.eraseP_append_right _ hpass]

/-! ## The arrival -/

/-- An arrival at a full queue whose newest frame of the lowest class is `g` (R189). -/
theorem Trunk.place_of_full {t : Trunk} (hfull : ¬t.occupancy < Config.transmitCapacity) (f : TrunkFrame)
    {older newer : List TrunkFrame} {g : TrunkFrame} (hw : t.waiting = older ++ g :: newer)
    (holder : ∀ h ∈ older, g.body.rank ≤ h.body.rank) (hnewer : ∀ h ∈ newer, g.body.rank < h.body.rank) :
    t.place f = if g.body.rank < f.body.rank then { t with waiting := older ++ newer ++ [f], lost := true }
      else { t with lost := true } := by
  have hle : ∀ h ∈ older ++ g :: newer, g.body.rank ≤ h.body.rank :=
    List.forall_mem_append.2 ⟨holder, List.forall_mem_cons.2 ⟨le_rfl, fun h hh => (hnewer h hh).le⟩⟩
  have hlowest : lowestRank t.waiting = g.body.rank := hw ▸ lowestRank_eq (by simp) hle
  have hdrop : dropNewest g.body.rank t.waiting = older ++ newer :=
    hw ▸ dropNewest_append_cons fun h hh => (hnewer h hh).ne'
  split
  case isTrue hr => rw [Trunk.place_of_higher hfull (hlowest ▸ hr), hlowest, hdrop]
  case isFalse hr => exact Trunk.place_of_not_higher hfull (hlowest ▸ hr)

/-- Every notice that is no relay is of the class FAULT (R189). -/
theorem FrameBody.rank_notice {n : Notice} (hn : ∀ o rs, n ≠ .relay o rs) : (FrameBody.notice n).rank = 1 := by
  cases n with
  | relay o rs => exact absurd rfl (hn o rs)
  | _ => rfl

/-- Settles O34: at a full queue the displaced frame is found by its place, and the classes compare as R189 says. -/
theorem transmitDiscardRule : Obligations.TransmitDiscardRule := by
  refine fun t f => ⟨fun hroom => Trunk.place_of_room hroom f, fun hfull older newer g hw holder hnewer =>
    Trunk.place_of_full (not_lt.2 hfull) f hw holder hnewer, fun tag code data n o rs hn => ?_⟩
  rw [FrameBody.rank_notice hn]
  exact ⟨Nat.zero_lt_one, Nat.one_lt_two⟩

end Sys2Proof.Machine
end

section
/-! PROOFS. What commands are made of. `Move` lists the operations that commands apply one after another, each with what
its command has tested by then; every command is a run of them (`exec_moves`). A law that each move keeps is kept by every
step (`Law.step`), so that no law's proof goes through the commands again. -/

namespace Sys2Proof.Machine

/-- The counts of a window within their bound (R84). -/
def Window.InRange (w : Window) : Prop := w.count ≤ Config.counterBound ∧ ∀ n ∈ w.last, n ≤ Config.counterBound

/-- The configuration an ASSET LOAD can store (R3). -/
structure AssetConfig.InRange (c : AssetConfig) : Prop where
  weight : 1 ≤ c.weight ∧ c.weight ≤ 255
  parent : ∀ p ∈ c.parent, p < Config.assetCapacity
  loopProfile : c.loopProfile ≠ none ↔ c.kind = .loop

/-- A point entry that may stand under a key: it names a present asset or the one the entry it replaces names, and holds
a 16-bit count or the one held before (R48, R53 to R56). -/
structure State.PointFits (s : State) (key : Nat) (p : Point) : Prop where
  named : ∀ a ∈ p.namedAsset, s.asset? a ≠ none ∨ ∃ q ∈ s.points.get? key, a ∈ q.namedAsset
  held : ∀ n ∈ p.countHeld, n ≤ 65535 ∨ ∃ q ∈ s.points.get? key, n ∈ q.countHeld
  outstation : pointOutstation key ≤ 127 ∨ ∃ x, (pointOutstation key, x) ∈ s.outstations
  room : (∃ q ∈ s.points.get? key, q.resolved = true → p.resolved = true)
    ∨ s.points.length < Config.pointCapacity ∧ (p.resolved = true ∨ s.pendingPoints < Config.pendingCapacity)

/-- One of the operations that commands are made of. -/
inductive Move : State → State → Prop
  -- The trunk unit, the time base and the model's own fields.
  | place (s : State) (f : TrunkFrame) : Move s (s.setTrunk (s.trunk.place f))
  | readdress (s : State) {node : Byte} {alternate : Option Byte} (hn : 1 ≤ node.toNat ∧ node.toNat ≤ 253)
      (ha : ∀ a ∈ alternate, 1 ≤ a.toNat ∧ a.toNat ≤ 253 ∧ a ≠ node) :
      Move s (s.setTrunk { s.trunk with node := node, alternate := alternate })
  | checkFail (s : State) : Move s (s.setTrunk { s.trunk with checkFails := bump s.trunk.checkFails })
  | transmit (s : State) : Move s (s.setTrunk (s.trunk.begun s.storm.on))
  | hush (s : State) : Move s (s.setTrunk { s.trunk with sending := none })
  | clearCounters (s : State) : Move s s.clearCounters
  | hold (s : State) : Move s (s.setResetHeld true)
  | clock (s : State) {x : TimeBase} (h : s.time.InRange → x.InRange) : Move s (s.setTime x)
  | hand (s : State) {ws : List TickWork} (h : s.owed.Nodup → ws.Nodup) : Move s (s.setOwed ws)
  | draw (s : State) (n : Nat) : Move s (s.setFreeCount n)
  -- Beacons and the storm monitor.
  | settle (s : State) : Move s s.settleBeacons
  | beacon (s : State) (b : Fin 4) {f : Beacon → Beacon} (h : (s.beacon b).InRange → (f (s.beacon b)).InRange) :
      Move s (s.adjustBeacon b f)
  | storm (s : State) {m : Storm} (h : s.StormInRange → (s.setStorm m).StormInRange) : Move s (s.setStorm m)
  -- Line units and outstations.
  | lineSettings (s : State) (k : Fin 4) {new : LineSettings} (hm : s.mode = .maintain) (hn : new.InRange) :
      Move s (s.storeLineSettings k new)
  | outstationLoad (s : State) {o : Nat} {config : OutstationConfig} (ho : o ≤ 127)
      (hc : 1 ≤ config.address ∧ config.address ≤ 250) (hl : s.linkValid config.link = true) (hm : s.mode = .maintain)
      (ht : s.addressTaken o config.address = false) :
      Move s (s.setOutstations (s.outstations.put o (outstationAfterLoad (s.outstation? o) config)))
  | outstationErase (s : State) (o : Nat) (hm : s.mode = .maintain) :
      Move s ((s.setPoints (s.pointsWithoutPendingOf o)).setOutstations (s.outstations.del o))
  | resync (s : State) (o : Nat) : Move s (s.adjustOutstation o fun x => { x with fullDue := true })
  | lineSecond (s : State) (k : Fin 4) : Move s (s.lineSecond k)
  | count (s : State) (k : Fin 4) {f : LineCounters → LineCounters} (h : ∀ c : LineCounters, c.InRange → (f c).InRange) :
      Move s (s.countOn k f)
  | receive (s : State) (k : Fin 4) {bytes : List Byte} (hr : s.receiving k = true)
      (hb : (s.line k).settings.fmax ≤ 255 → bytes.length ≤ 254) : Move s (s.setReceived k bytes)
  | enqueue (s : State) (k : Fin 4) {e : Downlink} (he : e.InRange k)
      (hq : (s.line k).queue.length < Config.downlinkCapacity) (hp : (s.line k).settings.personality ≠ .off)
      (hm : s.mode = .run) : Move s (s.adjustLine k fun l => { l with queue := l.queue ++ [e] })
  | pollAt (s : State) (k : Fin 4) {o : Nat} (ho : lineOf o = k.val) : Move s (s.setPollPosition k o)
  | countdown (s : State) (k : Fin 4) {o n : Nat} {x : Outstation} (ho : lineOf o = k.val) (hx : (o, x) ∈ s.outstations)
      (hn : n ≤ x.countdown ∨ (s.line k).settings.personality = .polled ∧ n = (s.line k).settings.rv) :
      Move s (s.setCountdown o n)
  | beginSweep (s : State) (k : Fin 4) {kind : TransactionKind} {o : Nat} (hf : s.lineFree k = true)
      (hk : kind.isSweep = true) (ho : lineOf o = k.val) : Move s (s.beginTransaction k kind o .sweep)
  | beginOrder (s : State) (k : Fin 4) {e : Downlink} {rest : List Downlink} (hf : s.lineFree k = true)
      (hq : (s.line k).queue = e :: rest) : Move s (s.beginOrder k e)
  | startTimer (s : State) (k : Fin 4) {t : Transaction} (ht : (s.line k).transaction = some t) :
      Move s (s.startTimer k t)
  | resend (s : State) (k : Fin 4) {t : Transaction} (ht : (s.line k).transaction = some t) (hk : t.kind.isSweep = true)
      (hr : s.retryOf t.outstation < (s.line k).settings.n2) : Move s (s.resendSweep k t)
  | drop (s : State) (k : Fin 4) {t : Transaction} (ht : (s.line k).transaction = some t)
      (h : t.kind.isSweep = false ∨ s.outstation? t.outstation = none) : Move s (s.setTransaction k none)
  | fail (s : State) (k : Fin 4) {t : Transaction} {x y : Outstation} (ht : (s.line k).transaction = some t)
      (hx : s.outstation? t.outstation = some x) (hp : (s.line k).settings.personality ≠ .off) (hc : y.config = x.config)
      (hr : y.retry = 0) (hh : y.lastHeard = x.lastHeard)
      (hn : y.countdown = (s.line k).settings.revisit ∨ y.countdown = x.countdown) :
      Move s ((s.setTransaction k none).setOutstations (s.outstations.put t.outstation y))
  | hear (s : State) (k : Fin 4) {o : Nat} {x : Outstation} (hx : (o, x) ∈ s.outstations) (ho : lineOf o = k.val) :
      Move s (s.lineTakes k o x (s.endedBy k o))
  -- The point map and the count windows.
  | putPoint (s : State) {key : Nat} {p : Point} (h : s.PointFits key p) : Move s (s.setPoints (s.points.put key p))
  | erasePoint (s : State) (key : Nat) : Move s (s.setPoints (s.points.del key))
  | silence (s : State) (o : Nat) :
      Move s (s.setPoints (s.points.mapAll fun key p => if pointOutstation key = o then p.silenced else p))
  | dropped (s : State) : Move s (s.setDrops (bump s.drops))
  | windows (s : State) {g : Nat → Asset → Window → Window} (hg : ∀ a x w, w.InRange → (g a x w).InRange) :
      Move s (s.setAssets (s.assets.mapAll fun a x => { x with window := x.window.map (g a x) }))
  | window (s : State) {a : Nat} {x : Asset} {g : Window → Window} (hx : s.asset? a = some x)
      (hg : ∀ w, w.InRange → (g w).InRange) : Move s (s.putAsset a { x with window := x.window.map g })
  -- Profiles and assets.
  | loopProfile (s : State) (p : Fin 8) {new : LoopProfile} (hn : new.InRange) :
      Move s (s.setLoopProfiles (s.loopProfiles.set p.val new p.isLt))
  | faultProfile (s : State) (p : Fin 16) {new : FaultProfile} (hm : s.mode = .maintain) (hn : new.InRange) :
      Move s (s.storeFaultProfile p new)
  | storeAsset (s : State) {a : Nat} {config : AssetConfig} (ha : a < Config.assetCapacity) (hc : config.InRange)
      (hm : s.mode ≠ .entering) (hp : s.parentPresent config.parent = true)
      (he : ¬(s.mode = .run ∧ editNeedsMaintain (s.asset? a) config = true))
      (hx : s.parentConflict a (s.asset? a) config.parent = false) : Move s (s.storeAsset a config)
  | eraseAsset (s : State) {a : Nat} {x : Asset} (hx : s.asset? a = some x) (hm : s.mode ≠ .entering)
      (he : s.eraseConflict a x = false) : Move s (s.setAssets (s.assets.del a))
  -- The fault table.
  | sample (s : State) {a : Nat} (hm : s.mode = .run) : Move s (s.sample a)
  | escalate (s : State) (hm : s.mode = .run) : Move s s.escalateAll
  | unflag (s : State) (id : Nat) : Move s (s.adjustRecord id fun r => { r with changeDue := false })
  | acknowledge (s : State) (id : Nat) {console : Nat} (hc : 1 ≤ console ∧ console ≤ 15) :
      Move s (s.adjustRecord id fun r => { r with state := .acked, console := some console })
  | close (s : State) {id : Nat} {r : FaultRecord} (hm : s.mode = .run) (hr : s.records.get? id = some r) :
      Move s ((s.adjustAsset r.asset fun x => { x with integrator := 0, health := .healthy }).clearRecord id r.asset true)
  -- Walks, modes and restarts.
  | beginWalk (s : State) : Move s s.beginWalk
  | absorbVisit (s : State) : Move s s.absorbVisit
  | releaseVisit (s : State) : Move s s.releaseVisit
  | rebuildVisit (s : State) {b : Rebuild} {v : Nat} (hm : s.mode = .entering) (hb : s.rebuild = some b)
      (hv : s.rebuildNext b.last = some v) : Move s ((s.rebuildAt v).setRebuild (some { b with last := some v }))
  | beginEntering (s : State) (owed : Option ReplyTo) (hm : s.mode = .maintain) : Move s (s.beginEntering owed)
  | enterRun (s : State) {b : Rebuild} (hm : s.mode = .entering) (hb : s.rebuild = some b)
      (hv : s.rebuildNext b.last = none) : Move s ((s.setMode .run).setRebuild none).readyLines
  | leaveRun (s : State) (hm : s.mode = .run) :
      Move s (((((s.setMode .maintain).haltLine 0).haltLine 1).haltLine 2).haltLine 3).endStorm
  | restartRuntime (s : State) : Move s s.restartRuntime
  | restartFull (s : State) : Move s s.restartFull
  | powerOn (s : State) : Move s { State.reset with freeCount := s.freeCount, pending := s.pending }

/-- A run of moves. -/
abbrev Moves : State → State → Prop := Relation.ReflTransGen Move

theorem Move.moves {s t : State} (h : Move s t) : Moves s t := .single h

/-- A run of operations, each a run of moves. -/
theorem Moves.foldl {β : Type} {f : State → β → State} (h : ∀ s b, Moves s (f s b)) (l : List β) (s : State) :
    Moves s (l.foldl f s) := by
  induction l generalizing s with
  | nil => exact .refl
  | cons b l ih => exact (h s b).trans (ih _)

/-- A run of operations that belong to RUN and do not leave it. -/
theorem Moves.foldl_run {β : Type} {f : State → β → State} (h : ∀ s b, s.mode = .run → Moves s (f s b))
    (hf : ∀ s b, (f s b).mode = s.mode) (l : List β) (s : State) (hs : s.mode = .run) : Moves s (l.foldl f s) := by
  induction l generalizing s with
  | nil => exact .refl
  | cons b l ih => exact (h s b hs).trans (ih _ (by rw [hf, hs]))

/-! ## Frames -/

theorem moves_notify (s : State) (n : Notice) : Moves s (s.notify n) := (Move.place s _).moves

theorem moves_reply (s : State) (dest : ReplyTo) (code : ReplyCode) (data : List Byte) :
    Moves s (s.reply dest code data) := (Move.place s _).moves

theorem moves_replyIfOwed (s : State) (dest : Option ReplyTo) (code : ReplyCode) : Moves s (s.replyIfOwed dest code) := by
  cases dest with
  | none => exact .refl
  | some d => exact moves_reply s d code []

theorem moves_settleBeacons (s : State) : Moves s s.settleBeacons := (Move.settle s).moves

/-! ## Windows -/

theorem Window.InRange.gapped {w : Window} (h : w.InRange) : Window.InRange { w with gap := true } := h

theorem moves_gapEveryLoop (s : State) : Moves s s.gapEveryLoop := (Move.windows s fun _ _ _ h => h.gapped).moves

/-- The gap flag of some LOOPs is set. -/
theorem moves_gapSome (s : State) (p : Nat → Asset → Bool) :
    Moves s (s.setAssets (s.assets.mapAll fun a x => if p a x then x.withGap else x)) := by
  have h := (Move.windows s (g := fun a x w => if p a x then { w with gap := true } else w) fun a x w h => by
    split
    · exact h.gapped
    · exact h).moves
  convert h using 5 with a x
  by_cases hp : p a x = true <;> simp [hp, Asset.withGap]

/-- An adjust of one key is a map over all. -/
theorem Table.adjust_eq_mapAll {α : Type} (t : Table α) (k : Nat) (f : α → α) :
    t.adjust k f = t.mapAll fun j x => if j = k then f x else x := by
  simp only [Table.adjust, Table.mapAll]
  congr 1
  funext e
  split <;> rfl

theorem Window.InRange.counted {w : Window} (h : w.InRange) (limit : Nat) (baseline : Option Nat) (v : Nat) :
    (w.counted limit baseline v).InRange := by
  unfold Window.counted
  split
  · exact h
  · split
    · exact ⟨Nat.min_le_left _ _, h.2⟩
    · exact h.gapped

theorem moves_takeCount (s : State) (a : Nat) (baseline : Option Nat) (v : Nat) : Moves s (s.takeCount a baseline v) := by
  have h := (Move.windows s (g := fun b x w => if b = a then w.counted (s.deltaLimit x) baseline v else w)
    fun b x w h => by
      split
      · exact h.counted _ _ _
      · exact h).moves
  rw [State.takeCount, State.adjustAsset, Table.adjust_eq_mapAll]
  convert h using 5 with b x
  by_cases hb : b = a <;> simp [hb]

theorem moves_closeWindow (dayMinute : Nat) (s : State) (a : Nat) (hm : s.mode = .run) :
    Moves s (s.closeWindow dayMinute a) := by
  unfold State.closeWindow
  split
  · exact .refl
  · next x hx =>
    split
    · exact .refl
    · exact (Move.window s hx fun w h => ⟨Nat.zero_le _, fun n hn => by cases hn; exact h.1⟩).moves.trans
        (Move.sample _ (by exact hm)).moves

end Sys2Proof.Machine
end

section
/-! PROOFS. The work of ticks, the line units, answers, directives and walks as runs of moves. -/

namespace Sys2Proof.Machine

/-! ## The work of ticks (R171 to R173) -/

theorem moves_sendChanged (s : State) (id : Nat) : Moves s (s.sendChanged id) := by
  unfold State.sendChanged
  split
  · exact (moves_notify s _).trans (Move.unflag _ id).moves
  · exact .refl

theorem moves_rankerMinute (s : State) : Moves s s.rankerMinute := by
  have escalated : Moves s s.escalateAll := by
    by_cases hm : s.mode = .run
    · exact (Move.escalate s hm).moves
    · rw [State.escalateAll, if_neg hm]
  refine escalated.trans ?_
  unfold State.rankerMinute State.coalesce
  split
  · exact Moves.foldl moves_sendChanged _ _
  · exact .refl

theorem moves_closeWindows (s : State) : Moves s s.closeWindows := by
  unfold State.closeWindows
  split
  · next hm _ =>
    exact Moves.foldl_run (moves_closeWindow _) (fun s a => (workFrame_closeWindow _ s a).mode) _ _ hm
  · exact .refl

/-- What the storm monitor may come to at an evaluation in RUN (R162, R163). -/
theorem Storm.evaluated_range (m : Storm) (hq : m.calmPeriod ≤ 60) (hc : m.calm ≤ 60) (hoff : m.on = false → m.calm = 0) :
    m.evaluated.1.entry = m.entry ∧ m.evaluated.1.exit = m.exit ∧ m.evaluated.1.calmPeriod = m.calmPeriod
      ∧ m.evaluated.1.calm ≤ 60 ∧ (m.evaluated.1.on = false → m.evaluated.1.calm = 0) := by
  unfold Storm.evaluated
  split
  · split
    · simp
    · split
      · simp
      · refine ⟨rfl, rfl, rfl, ?_, by simp_all⟩
        dsimp only
        omega
  · split <;> simp_all

theorem moves_stormMinute (s : State) : Moves s s.stormMinute := by
  unfold State.stormMinute
  split
  · next hm =>
    have evaluated : Moves s (s.setStorm { s.storm.evaluated.1 with opens := 0 }) := by
      refine (Move.storm s ?_).moves
      rintro ⟨he, hx, hq1, hq, hc, -, hoff, -⟩
      obtain ⟨h1, h2, h3, h4, h5⟩ := s.storm.evaluated_range hq hc hoff
      exact ⟨h1 ▸ he, h2 ▸ hx, h3 ▸ hq1, h3 ▸ hq, h4, Nat.zero_le _, h5, fun _ => hm⟩
    dsimp only
    split
    · exact evaluated.trans (moves_notify _ _)
    · exact evaluated
  · refine (Move.storm s ?_).moves
    rintro ⟨he, hx, hq1, hq, hc, -, hoff, hon⟩
    exact ⟨he, hx, hq1, hq, hc, Nat.zero_le _, hoff, hon⟩

theorem Beacon.InRange.secondTick {b : Beacon} (h : b.InRange) : b.secondTick.InRange := by
  obtain ⟨ha, hc, hv, hn, hl, hs, hz⟩ := h
  unfold Beacon.secondTick
  split
  · exact ⟨ha, hc, hv, hn, hl, hs, hz⟩
  · split
    · next hne h1 =>
      have hu : b.stretch ≠ .latched := fun he => hne (hz he)
      refine ⟨ha, by simp, by simp_all, by simp, fun h => absurd (hs h) hu, hs, fun h => absurd h hu⟩
    · next hne _ =>
      exact ⟨ha, by dsimp only; omega, hv, fun _ => hn hne, hl, hs, fun h => absurd (hz h) hne⟩

theorem moves_tickWork (s : State) (w : TickWork) : Moves s (s.tickWork w) := by
  cases w with
  | line k => exact (Move.lineSecond s k).moves
  | beacon b => exact (Move.beacon s b Beacon.InRange.secondTick).moves
  | ranker => exact (moves_rankerMinute s).trans (moves_settleBeacons _)
  | windows => exact (moves_closeWindows s).trans (moves_settleBeacons _)
  | storm => exact (moves_stormMinute s).trans (moves_settleBeacons _)

theorem moves_doOwed (s : State) (w : TickWork) : Moves s (s.doOwed w) := by
  unfold State.doOwed
  split
  · exact (Move.hand s fun h => h.erase w).moves.trans (moves_tickWork _ w)
  · exact .refl

theorem moves_finishOwed (s : State) : Moves s s.finishOwed := by
  unfold State.finishOwed
  split
  · exact .refl
  · exact (Moves.foldl moves_doOwed _ s).trans (Move.draw _ _).moves

theorem TimeBase.InRange.minuteTick {t : TimeBase} (h : t.InRange) : t.minuteTick.InRange := by
  obtain ⟨-, -, hd⟩ := h
  refine ⟨Nat.zero_le _, Nat.mod_lt _ (by omega), fun d hd' => ?_⟩
  simp only [TimeBase.minuteTick, Option.mem_def, Option.map_eq_some_iff] at hd'
  obtain ⟨d', -, rfl⟩ := hd'
  omega

theorem TimeBase.InRange.secondTick {t : TimeBase} (h : t.InRange) : t.secondTick.InRange := by
  unfold TimeBase.secondTick
  split
  · exact ⟨by dsimp only; omega, h.2⟩
  · exact h.minuteTick

theorem moves_tickSecond (s : State) : Moves s s.tickSecond := by
  refine (Move.clock s TimeBase.InRange.secondTick).moves.trans (Move.hand _ fun _ => ?_).moves
  split <;> decide

theorem moves_tickMinute (s : State) : Moves s s.tickMinute :=
  (Move.clock s TimeBase.InRange.minuteTick).moves.trans (Move.hand _ fun _ => by decide).moves

theorem moves_runOn (s : State) : Moves s s.runOn := by
  have block (work : State → State)
      (h : work ∈ freeOrder s.freeCount [State.rankerMinute, State.closeWindows, State.stormMinute]) (t : State) :
      Moves t (work t) := by
    rw [(freeOrder_perm _ _).mem_iff] at h
    simp only [List.mem_cons, List.not_mem_nil, or_false] at h
    obtain rfl | rfl | rfl := h
    · exact moves_rankerMinute t
    · exact moves_closeWindows t
    · exact moves_stormMinute t
  have run (l : List (State → State)) (h : ∀ work ∈ l, ∀ t, Moves t (work t)) (t : State) :
      Moves t (l.foldl (fun t work => work t) t) := by
    induction l generalizing t with
    | nil => exact .refl
    | cons work l ih =>
      exact (h work List.mem_cons_self t).trans (ih (fun w hw => h w (List.mem_cons_of_mem _ hw)) _)
  exact ((Move.clock s TimeBase.InRange.minuteTick).moves.trans (run _ block _)).trans (Move.draw _ _).moves

theorem moves_takeTime (s : State) {dayMinute second : Nat} (hd : dayMinute ≤ 1439) (hs : second ≤ 59) :
    Moves s (s.takeTime dayMinute second) := by
  have ran : Moves s (if second < s.time.second then s.runOn.settleBeacons else s) := by
    split
    · exact (moves_runOn s).trans (moves_settleBeacons _)
    · exact .refl
  refine ran.trans (.trans (Move.clock _ ?_).moves (moves_gapEveryLoop _))
  rintro ⟨-, hr, -⟩
  exact ⟨hs, hr, fun d h => by cases h; exact hd⟩

/-! ## Line units (R25 to R36) -/

theorem mem_insertStation {e e' : Nat × Outstation} {l : List (Nat × Outstation)} :
    e' ∈ insertStation e l ↔ e' = e ∨ e' ∈ l := by
  induction l with
  | nil => simp [insertStation]
  | cons a l ih =>
    simp only [insertStation]
    split
    · simp
    · simp only [List.mem_cons, ih]; tauto

/-- The stations of a line are the outstations with an index on it (R20). -/
theorem State.mem_stations {s : State} {k : Fin 4} {e : Nat × Outstation} :
    e ∈ s.stations k ↔ e ∈ s.outstations ∧ lineOf e.1 = k.val := by
  unfold State.stations
  have h (l : List (Nat × Outstation)) : e ∈ l.foldr insertStation [] ↔ e ∈ l := by
    induction l with
    | nil => simp
    | cons a l ih => simp [mem_insertStation, ih]
  rw [h]
  simp

theorem nextStation_mem {l : List (Nat × Outstation)} {p : Option Nat} {e : Nat × Outstation}
    (h : nextStation l p = some e) : e ∈ l := by
  unfold nextStation at h
  split at h
  · exact List.mem_of_head? h
  · split at h
    · next hf => cases h; exact List.mem_of_find?_eq_some hf
    · exact List.mem_of_head? h

/-- A line is free exactly in RUN, under a personality, with no transaction in hand. -/
theorem State.lineFree_iff (s : State) (k : Fin 4) :
    s.lineFree k = true ↔ (s.line k).settings.personality ≠ .off ∧ s.mode = .run ∧ (s.line k).transaction = none := by
  unfold State.lineFree State.lineState
  by_cases hp : (s.line k).settings.personality = .off
  · simp [hp]
  · by_cases hm : s.mode = .run
    · simp only [hp, hm, if_false, ne_eq, not_true, not_false_eq_true, true_and]
      cases h : (s.line k).transaction <;> simp
    · simp [hp, hm]

@[simp] theorem State.adjustLine_line_self (s : State) (k : Fin 4) (f : Line → Line) :
    (s.adjustLine k f).line k = f (s.line k) := by
  change (s.lines.set k.val _ k.isLt)[k.val] = _
  rw [Vector.getElem_set_self]
  rfl

theorem State.adjustLine_line_of_ne (s : State) {k j : Fin 4} (h : j ≠ k) (f : Line → Line) :
    (s.adjustLine k f).line j = s.line j := by
  have : k.val ≠ j.val := fun e => h (Fin.ext e.symm)
  change (s.lines.set k.val _ k.isLt)[j.val] = _
  rw [Vector.getElem_set_ne _ _ this]
  rfl

theorem moves_advancePoll (fuel : Nat) (k : Fin 4) (s : State) (hp : (s.line k).settings.personality = .polled)
    (hf : s.lineFree k = true) : Moves s (advancePoll fuel k s) := by
  induction fuel generalizing s with
  | zero => exact .refl
  | succ f ih =>
    unfold advancePoll
    split
    · exact .refl
    · next o x h =>
      obtain ⟨hx, ho⟩ := State.mem_stations.1 (nextStation_mem h)
      have polled : Moves s (s.setPollPosition k o) := (Move.pollAt s k ho).moves
      have free (t : State) (hm : t.mode = s.mode) (hl : t.line k = (s.setPollPosition k o).line k) :
          t.lineFree k = true := by
        simp only [State.lineFree_iff] at hf ⊢
        simpa [hm, hl, State.setPollPosition] using hf
      have counted (n : Nat) (hn : n ≤ x.countdown ∨ n = (s.line k).settings.rv) :
          Moves s ((s.setPollPosition k o).setCountdown o n) :=
        polled.trans (Move.countdown (s.setPollPosition k o) k ho hx (hn.imp_right fun h => by simp [State.setPollPosition, hp, h])).moves
      have hk : (TransactionKind.sweep x.sweptFull).isSweep = true := rfl
      dsimp only
      split
      · exact polled.trans (Move.beginSweep (s.setPollPosition k o) k (free _ rfl rfl) hk ho).moves
      · split
        · exact (counted _ (.inr rfl)).trans
            (Move.beginSweep ((s.setPollPosition k o).setCountdown o _) k (free _ rfl rfl) hk ho).moves
        · refine (counted _ (.inl (Nat.sub_le _ _))).trans (ih _ ?_ (free _ rfl rfl))
          change ((s.setPollPosition k o).line k).settings.personality = .polled
          simpa [State.setPollPosition] using hp

theorem moves_choosePolled (s : State) (k : Fin 4) (hp : (s.line k).settings.personality = .polled)
    (hf : s.lineFree k = true) : Moves s (s.choosePolled k) := by
  unfold State.choosePolled
  split
  · next hq _ => exact (Move.beginOrder s k hf hq).moves
  · next hq _ => exact (Move.beginOrder s k hf hq).moves
  · exact moves_advancePoll _ k s hp hf

theorem moves_chooseException (s : State) (k : Fin 4) (hf : s.lineFree k = true) : Moves s (s.chooseException k) := by
  have checked {o : Nat} {x : Outstation} (h : s.firstDue k = some (o, x)) :
      Moves s (s.beginTransaction k (.check x.sweptFull) o .sweep) :=
    (Move.beginSweep s k hf rfl (State.mem_stations.1 (List.mem_of_find?_eq_some h)).2).moves
  unfold State.chooseException
  split
  · exact .refl
  · next hq _ => exact (Move.beginOrder s k hf hq).moves
  · next h => exact checked h
  · next hq h =>
    split
    · exact checked h
    · exact (Move.beginOrder s k hf hq).moves

/-- The transaction a line awaits is the one it has in hand, with its frame sent once. -/
theorem State.awaitedOn_eq_some {s : State} {k : Fin 4} {t : Transaction} (h : s.awaitedOn k = some t) :
    (s.line k).transaction = some t ∧ t.phase ≠ .sending ∧ (s.line k).settings.personality ≠ .off ∧ s.mode = .run := by
  unfold State.awaitedOn at h
  split at h
  · next u hu =>
    split at h
    · next hc =>
      cases h
      obtain ⟨ha, hs⟩ := hc
      refine ⟨hu, by simpa [Transaction.awaited] using ha, ?_, ?_⟩
      · intro hoff; simp [State.lineState, hoff] at hs
      · by_contra hm
        simp only [State.lineState] at hs
        split at hs <;> simp_all
    · cases h
  · cases h

theorem LineCounters.InRange.timeout {c : LineCounters} (h : c.InRange) : c.timeout.InRange := by
  obtain ⟨h1, h2, h3, h4, h5, -⟩ := h
  exact ⟨h1, h2, h3, h4, h5, Nat.min_le_left _ _⟩

theorem LineCounters.InRange.goodFrame {c : LineCounters} (h : c.InRange) : c.goodFrame.InRange :=
  ⟨Nat.min_le_left _ _, h.2⟩

theorem LineCounters.InRange.discard {c : LineCounters} (h : c.InRange) (why : FieldDiscard) : (c.discard why).InRange := by
  obtain ⟨h1, h2, h3, h4, h5, h6⟩ := h
  have hb (n : Nat) : bump n ≤ Config.counterBound := Nat.min_le_left _ _
  cases why with
  | checkError => exact ⟨h1, hb _, h3, h4, h5, h6⟩
  | overlong => exact ⟨h1, h2, hb _, h4, h5, h6⟩
  | unknownStation => exact ⟨h1, h2, h3, hb _, h5, h6⟩
  | stray => exact ⟨h1, h2, h3, h4, hb _, h6⟩

theorem moves_discard (s : State) (k : Fin 4) (why : FieldDiscard) : Moves s (s.countOn k fun c => c.discard why) :=
  (Move.count s k fun _ h => h.discard why).moves

theorem moves_silencePoints (s : State) (o : Nat) : Moves s (s.silencePoints o) :=
  (moves_gapSome s _).trans (Move.silence _ o).moves

theorem moves_sampleLink (s : State) (x : Outstation) (hm : s.mode = .run) : Moves s (s.sampleLink x) := by
  unfold State.sampleLink
  split
  · exact (Move.sample s (by exact hm)).moves
  · exact .refl

theorem moves_failTransaction (s : State) (k : Fin 4) {t : Transaction} (ht : (s.line k).transaction = some t)
    (hp : (s.line k).settings.personality ≠ .off) (hm : s.mode = .run) : Moves s (s.failTransaction k t.outstation) := by
  have settings : ((s.setTransaction k none).line k).settings = (s.line k).settings := by simp [State.setTransaction]
  unfold State.failTransaction
  dsimp only
  split
  · next h => exact (Move.drop s k ht (.inr h)).moves
  · next x hx =>
    have failed (y : Outstation) (hc : y.config = x.config) (hr : y.retry = 0) (hh : y.lastHeard = x.lastHeard)
        (hn : y.countdown = (s.line k).settings.revisit ∨ y.countdown = x.countdown) :
        Moves s ((s.setTransaction k none).setOutstations (s.outstations.put t.outstation y)) :=
      (Move.fail s k ht hx hp hc hr hh hn).moves
    split
    · unfold State.staySilent
      dsimp only
      refine (failed _ ?_ ?_ ?_ ?_).trans (moves_sampleLink _ _ hm)
      · rfl
      · rfl
      · rfl
      · simp only [settings, LineSettings.revisit]
        split
        · next he => exact .inl (by simp [he])
        · exact .inr rfl
    · unfold State.becomeSilent
      dsimp only
      refine (((failed _ ?_ ?_ ?_ ?_).trans (moves_notify _ _)).trans (moves_silencePoints _ _)).trans
        (moves_sampleLink _ _ hm)
      · rfl
      · rfl
      · rfl
      · exact .inl (by rw [settings])

/-! ## Answers (R24, R47 to R51, R62) -/

theorem pointOutstation_pointKey (o : Nat) (r : PointRecord) : pointOutstation (pointKey o r.code) = o := by
  have := (r.word.extractLsb' 6 10).isLt
  simp only [pointOutstation, pointKey, PointRecord.code]
  omega

theorem PointRecord.countValue_le (r : PointRecord) : ∀ n ∈ r.countValue, n ≤ 65535 := by
  intro n hn
  simp only [PointRecord.countValue, Option.mem_def, Option.map_eq_some_iff] at hn
  obtain ⟨w, -, rfl⟩ := hn
  have := w.isLt
  omega

/-- A point that names what the entry it replaces names, under a key of a present outstation. -/
theorem State.PointFits.replace {s : State} {o : Nat} {r : PointRecord} {p q : Point} (ho : ∃ x, (o, x) ∈ s.outstations)
    (hq : s.points.get? (pointKey o r.code) = some q) (hn : p.namedAsset = q.namedAsset) (hr : p.resolved = q.resolved)
    (hc : ∀ n ∈ p.countHeld, n ≤ 65535) : s.PointFits (pointKey o r.code) p where
  named a ha := .inr ⟨q, hq, hn ▸ ha⟩
  held n h := .inl (hc n h)
  outstation := .inr (by rwa [pointOutstation_pointKey])
  room := .inl ⟨q, hq, fun h => hr ▸ h⟩

theorem moves_applyRecord (s : State) {o : Nat} (r : PointRecord) (ho : ∃ x, (o, x) ∈ s.outstations) :
    Moves s (s.applyRecord o r) := by
  unfold State.applyRecord
  dsimp only
  split
  · next a c hq =>
    refine (Move.putPoint s (.replace ho hq ?_ ?_ ?_)).moves
    · rfl
    · rfl
    · rintro n ⟨⟩
  · next a b hq =>
    split
    · next v hv =>
      refine (moves_takeCount s a b v).trans (Move.putPoint (s.takeCount a b v) (.replace ho hq ?_ ?_ ?_)).moves
      · rfl
      · rfl
      · rintro n ⟨⟩
        exact r.countValue_le _ hv
    · exact .refl
  · next c n hq =>
    refine (Move.putPoint s (.replace ho hq ?_ ?_ ?_)).moves
    · rfl
    · rfl
    · exact r.countValue_le
  · unfold State.createPlaceholder
    split
    · next hroom =>
      refine .trans (Move.putPoint s ?_).moves (moves_notify _ _)
      exact {
        named := by rintro a ⟨⟩
        held := fun n hn => .inl (r.countValue_le n hn)
        outstation := .inr (by rwa [pointOutstation_pointKey])
        room := .inr ⟨hroom.1, .inr hroom.2⟩ }
    · exact (Move.dropped s).moves

@[simp] theorem State.applyRecord_outstations (s : State) (o : Nat) (r : PointRecord) :
    (s.applyRecord o r).outstations = s.outstations := by
  unfold State.applyRecord State.createPlaceholder
  dsimp only
  split
  · rfl
  · split <;> rfl
  · rfl
  · split <;> rfl

theorem moves_applyRecords (s : State) {o : Nat} (rs : List PointRecord) (ho : ∃ x, (o, x) ∈ s.outstations) :
    Moves s (rs.foldl (fun t r => t.applyRecord o r) s) := by
  induction rs generalizing s with
  | nil => exact .refl
  | cons r rs ih => exact (moves_applyRecord s r ho).trans (ih _ (by simpa using ho))

theorem State.createPlaceholder_mode (s : State) (o : Nat) (r : PointRecord) :
    (s.createPlaceholder o r).mode = s.mode := by
  unfold State.createPlaceholder
  split <;> rfl

theorem State.applyRecord_mode (s : State) (o : Nat) (r : PointRecord) : (s.applyRecord o r).mode = s.mode := by
  unfold State.applyRecord
  dsimp only
  split
  · rfl
  · split <;> rfl
  · rfl
  · exact s.createPlaceholder_mode o r

theorem State.applyRecords_mode (s : State) (o : Nat) (rs : List PointRecord) :
    (rs.foldl (fun t r => t.applyRecord o r) s).mode = s.mode := by
  induction rs generalizing s with
  | nil => rfl
  | cons r rs ih => exact (ih _).trans (s.applyRecord_mode o r)

theorem State.relayRecords_mode (s : State) (o : Nat) (selection : List PointRecord) :
    (s.relayRecords o selection).mode = s.mode := by
  unfold State.relayRecords
  split <;> rfl

theorem moves_relayRecords (s : State) (o : Nat) (selection : List PointRecord) : Moves s (s.relayRecords o selection) := by
  unfold State.relayRecords
  split
  · exact .refl
  · exact moves_notify s _

theorem moves_takeIntoPoints (s : State) {o : Nat} (x : Outstation) (rs : List PointRecord)
    (ho : ∃ x, (o, x) ∈ s.outstations) (hm : s.mode = .run) : Moves s (s.takeIntoPoints o x rs) :=
  ((moves_applyRecords s rs ho).trans (moves_relayRecords _ _ _)).trans
    (Moves.foldl_run (fun s _ hs => (Move.sample s hs).moves) (fun s a => (faultFrame_sample s a).mode) _ _
      (by rw [State.relayRecords_mode, State.applyRecords_mode, hm]))

theorem moves_replyDelivered (s : State) (ended : Option Transaction) : Moves s (s.replyDelivered ended) := by
  unfold State.replyDelivered
  split
  · split
    · exact moves_reply s _ _ _
    · exact .refl
  · exact .refl

theorem State.lineTakes_outstations (s : State) (k : Fin 4) (o : Nat) (x : Outstation) (ended : Option Transaction) :
    ∃ y, (s.lineTakes k o x ended).outstations = s.outstations.put o y := by
  unfold State.lineTakes
  dsimp only
  split
  · split <;> exact ⟨_, rfl⟩
  · split <;> exact ⟨_, rfl⟩

theorem State.lineTakes_mode (s : State) (k : Fin 4) (o : Nat) (x : Outstation) (ended : Option Transaction) :
    (s.lineTakes k o x ended).mode = s.mode := by
  unfold State.lineTakes
  dsimp only
  split <;> split <;> rfl

/-- A line that receives belongs to RUN (R19, R37). -/
theorem State.receiving_run {s : State} {k : Fin 4} (h : s.receiving k = true) : s.mode = .run := by
  by_contra hm
  simp only [State.receiving, State.lineState, if_pos hm, decide_eq_true_eq] at h
  split at h
  · exact absurd h (by decide)
  · exact absurd h (by decide)

theorem moves_takeAnswer (s : State) (k : Fin 4) {o : Nat} {x : Outstation} (rs : List PointRecord)
    (hx : (o, x) ∈ s.outstations) (ho : lineOf o = k.val) (hm : s.mode = .run) : Moves s (s.takeAnswer k o x rs) := by
  obtain ⟨y, hy⟩ := s.lineTakes_outstations k o x (s.endedBy k o)
  refine .trans (.trans (.trans (Move.hear s k hx ho).moves (moves_takeIntoPoints _ x rs ⟨y, ?_⟩ (by rw [State.lineTakes_mode, hm])))
    (moves_replyDelivered _ _)) (moves_settleBeacons _)
  rw [hy]
  exact Table.mem_of_get? (Table.get?_put_self _ _ _)

theorem State.findSender_ok {s : State} {k : Fin 4} {addr : Byte} {e : Nat × Outstation}
    (h : s.findSender k addr = .ok e) : e ∈ s.outstations ∧ lineOf e.1 = k.val ∧ e.2.config.address = addr.toNat := by
  unfold State.findSender at h
  split at h
  · cases h
  · next o x hx =>
    split at h
    · cases h
    · cases h
      have ha := List.find?_some hx
      obtain ⟨hm, hl⟩ := State.mem_stations.1 (List.mem_of_find?_eq_some hx)
      exact ⟨hm, hl, by simpa using ha⟩

theorem moves_completeFrame (s : State) (k : Fin 4) (addr kind : Byte) (payload : List Byte) (hm : s.mode = .run) :
    Moves s (s.completeFrame k addr kind payload) := by
  unfold State.completeFrame
  split
  · exact moves_discard s k _
  · split
    · exact moves_discard s k _
    · next hs =>
      obtain ⟨hx, hl, -⟩ := State.findSender_ok hs
      exact moves_takeAnswer s k _ hx hl hm

theorem moves_spent (s : State) (k : Fin 4) (h : s.receiving k = true) : Moves s (s.setReceived k []) :=
  (Move.receive s k h fun _ => Nat.zero_le _).moves

theorem moves_fieldFrame (s : State) (k : Fin 4) (addr kind : Byte) (payload : List Byte) :
    Moves s (s.fieldFrame k addr kind payload) := by
  unfold State.fieldFrame
  split
  · exact .refl
  · next h =>
    have receiving : s.receiving k = true := by simpa using h
    have spent := moves_spent s k receiving
    dsimp only
    split
    · exact spent.trans (moves_discard _ k _)
    · exact spent.trans (moves_completeFrame _ _ _ _ _ (State.receiving_run (s := s) receiving))

/-- The bytes of an unfinished frame are fewer than its limit, the check and the start byte together (R37). -/
theorem scanFrame_incomplete {limit : Nat} {rest : List Byte} (h : scanFrame limit rest = .incomplete) :
    rest.length ≤ limit + 4 := by
  unfold scanFrame at h
  split at h
  · next addr kind len rest =>
    split at h
    · cases h
    · split at h
      · simp only [List.length_cons]; omega
      · dsimp only at h
        split at h <;> cases h
  · next hshort =>
    rcases rest with _ | ⟨a, _ | ⟨b, _ | ⟨c, l⟩⟩⟩
    · simp
    · simp
    · simp
    · exact absurd rfl (hshort a b c l)

theorem moves_fieldBytes (s : State) (k : Fin 4) (bytes : List Byte) : Moves s (s.fieldBytes k bytes) := by
  unfold State.fieldBytes
  split
  · exact .refl
  · next h =>
    replace h : s.receiving k = true := by simpa using h
    have spent := moves_spent s k h
    split
    · exact spent
    · next rest _ =>
      split
      · next hscan =>
        refine (Move.receive s k h fun hf => ?_).moves
        have := scanFrame_incomplete hscan
        simp only [List.length_cons]
        omega
      · exact spent.trans (moves_discard _ k _)
      · exact spent.trans (moves_discard _ k _)
      · exact spent.trans (moves_completeFrame _ _ _ _ _ (State.receiving_run (s := s) h))

end Sys2Proof.Machine
end

section
/-! PROOFS. Directives, modes and walks as runs of moves, and with them every command; what a law gains from that. -/

namespace Sys2Proof.Machine

/-! ## Operands in range (R197) -/

theorem byteAt_le (fs : List Byte) (i : Nat) : byteAt fs i ≤ 255 := by
  have := (fs.getD i 0).isLt
  unfold byteAt
  omega

theorem wordAt_le (fs : List Byte) (i : Nat) : wordAt fs i ≤ 65535 := by
  have := byteAt_le fs i
  have := byteAt_le fs (i + 1)
  unfold wordAt
  omega

theorem clamp_mem (lo hi n : Nat) (h : lo ≤ hi) : lo ≤ clamp lo hi n ∧ clamp lo hi n ≤ hi := by
  unfold clamp
  omega

theorem LineSettings.inRange_powerOn : LineSettings.powerOn.InRange := by decide

theorem FaultProfile.inRange_powerOn : FaultProfile.powerOn.InRange := by decide

theorem LoopProfile.inRange_powerOn : LoopProfile.powerOn.InRange := by decide

theorem readLineSettings_inRange {fs : List Byte} {l : LineSettings} (h : readLineSettings fs = some l) : l.InRange := by
  simp only [readLineSettings, Option.map_eq_some_iff] at h
  obtain ⟨p, -, rfl⟩ := h
  have h1 := clamp_mem 1 255 (byteAt fs 2) (by omega)
  have h2 := clamp_mem 0 7 (byteAt fs 3) (by omega)
  have h3 := clamp_mem 1 15 (byteAt fs 4) (by omega)
  have h4 := clamp_mem 10 3600 (wordAt fs 5) (by omega)
  have h5 := clamp_mem 16 255 (byteAt fs 7) (by omega)
  exact ⟨h1.1, h1.2, h2.2, h3.1, h3.2, h4.1, h4.2, h5.1, h5.2⟩

theorem readOutstationConfig_address {fs : List Byte} {c : OutstationConfig} (h : readOutstationConfig fs = some c) :
    1 ≤ c.address ∧ c.address ≤ 250 := by
  unfold readOutstationConfig at h
  split at h
  · cases h
  · split at h
    · next ha => cases h; exact ha
    · cases h

theorem readAssetConfig_inRange {fs : List Byte} {c : AssetConfig} (h : readAssetConfig fs = some c) : c.InRange := by
  unfold readAssetConfig at h
  split at h
  · next kind parent loopProfile hk hp hl =>
    split at h
    · split at h
      · next hiff =>
        cases h
        refine ⟨⟨Nat.le_max_left _ _, Nat.max_le.2 ⟨by omega, byteAt_le fs 5⟩⟩, fun p hp' => ?_, ?_⟩
        · cases hp'
          unfold readParentRef at hp
          split at hp
          · cases hp
          · split at hp
            · cases hp; assumption
            · cases hp
        · rw [← Option.isSome_iff_ne_none]
          exact hiff.symm
      · cases h
    · cases h
  · cases h

theorem readFaultProfile_inRange {fs : List Byte} {p : FaultProfile} (h : readFaultProfile fs = some p) : p.InRange := by
  simp only [readFaultProfile, Option.ite_none_right_eq_some] at h
  obtain ⟨⟨h1, h2, h3, h4, h5, h6, h7, h8, h9, h10, h11, h12⟩, h⟩ := h
  cases h
  exact ⟨h1, h2, h3, h4, h5, h6, h7, Nat.le_min.2 ⟨h8, h6⟩, Nat.min_le_right _ _, h10, h11, h12, byteAt_le _ _,
    byteAt_le _ _⟩

theorem readLoopProfile_inRange {fs : List Byte} {p : LoopProfile} (h : readLoopProfile fs = some p) : p.InRange := by
  simp only [readLoopProfile, Option.ite_none_right_eq_some] at h
  obtain ⟨⟨h1, h2, h3, h4, h5, h6, h7, h8, h9, h10, h11, h12⟩, h⟩ := h
  cases h
  exact ⟨by simpa using h1, h2, h3, h4, h5, h6, h7, h8, h9, h10, h11, h12, wordAt_le _ _, wordAt_le _ _, wordAt_le _ _,
    wordAt_le _ _⟩

theorem keyByte_ok {fs : List Byte} {lo hi n : Nat} (h : keyByte fs lo hi = .ok n) : lo ≤ n ∧ n ≤ hi ∧ n = byteAt fs 0 := by
  unfold keyByte at h
  split at h
  · cases h
  · split at h
    · next hr => cases h; exact ⟨hr.1, hr.2, rfl⟩
    · cases h

theorem assetKey_ok {fs : List Byte} {a : Nat} (h : assetKey fs = .ok a) : a < Config.assetCapacity := by
  unfold assetKey at h
  split at h
  · cases h
  · split at h
    · cases h; assumption
    · cases h

theorem pointKeyOf_ok {fs : List Byte} {key : Nat} (h : pointKeyOf fs = .ok key) : pointOutstation key ≤ 127 := by
  unfold pointKeyOf at h
  repeat' split at h
  all_goals cases h
  unfold pointOutstation pointKey
  omega

/-! ## Table edits (R186) -/

section
variable {fs : List Byte} {s t : State}

theorem moves_partLoad (h : partLoad fs s = .ok t) : Moves s t := by
  unfold partLoad at h
  repeat' split at h
  all_goals cases h
  all_goals have h1 : byteAt fs 1 = (fs.getD 1 0).toNat := rfl
  · exact (Move.readdress s ⟨by omega, by omega⟩ (by rintro a ⟨⟩)).moves
  · next hne _ _ =>
    have h2 : byteAt fs 2 = (fs.getD 2 0).toNat := rfl
    refine (Move.readdress s ⟨by omega, by omega⟩ fun a ha => ?_).moves
    cases ha
    exact ⟨by omega, by omega, fun he => hne (by rw [h1, h2, he])⟩

theorem moves_partErase (h : partErase fs s = .ok t) : Moves s t := by
  unfold partErase at h
  repeat' split at h
  all_goals cases h
  exact (Move.readdress s (by decide) (by rintro a ⟨⟩)).moves

theorem moves_lineLoad (h : lineLoad fs s = .ok t) : Moves s t := by
  unfold lineLoad at h
  repeat' split at h
  all_goals cases h
  next k _ _ _ new hnew hm => exact (Move.lineSettings s k (not_not.1 hm) (readLineSettings_inRange hnew)).moves

theorem moves_lineErase (h : lineErase fs s = .ok t) : Moves s t := by
  unfold lineErase at h
  repeat' split at h
  all_goals cases h
  next k _ hm => exact (Move.lineSettings s k (not_not.1 hm) LineSettings.inRange_powerOn).moves

theorem moves_outstationLoad (h : outstationLoad fs s = .ok t) : Moves s t := by
  unfold outstationLoad at h
  repeat' split at h
  all_goals cases h
  next o ho _ _ config hc hl hm ht =>
  exact (Move.outstationLoad s (keyByte_ok ho).2.1 (readOutstationConfig_address hc) (by simpa using hl) (not_not.1 hm)
    (by simpa using ht)).moves.trans (moves_settleBeacons _)

theorem moves_outstationErase (h : outstationErase fs s = .ok t) : Moves s t := by
  unfold outstationErase at h
  repeat' split at h
  all_goals cases h
  · exact .refl
  · next o _ hm _ _ => exact (Move.outstationErase s o (not_not.1 hm)).moves.trans (moves_settleBeacons _)

theorem moves_assetLoad (hs : s.mode ≠ .entering) (h : assetLoad fs s = .ok t) : Moves s t := by
  unfold assetLoad at h
  repeat' split at h
  all_goals cases h
  next a ha _ _ config hc hp he hx _ =>
  exact (Move.storeAsset s (assetKey_ok ha) (readAssetConfig_inRange hc) hs (by simpa using hp) he (by simpa using hx)).moves

theorem moves_assetErase (hs : s.mode ≠ .entering) (h : assetErase fs s = .ok t) : Moves s t := by
  unfold assetErase at h
  repeat' split at h
  all_goals cases h
  · exact .refl
  · next hx he => exact (Move.eraseAsset s hx hs (by simpa using he)).moves

theorem State.pointFits_load {key a : Nat} {isCount : Bool} (hk : pointOutstation key ≤ 127)
    (ha : s.pointAssetValid a isCount = true)
    (hroom : ¬((!s.points.has key) = true ∧ Config.pointCapacity ≤ s.points.length)) :
    s.PointFits key (pointAfterLoad (s.points.get? key) a isCount) where
  named b hb := by
    have hab : b = a := by
      unfold pointAfterLoad at hb
      split at hb <;> exact (Option.some.inj hb).symm
    subst hab
    left
    intro hnone
    simp [State.pointAssetValid, hnone] at ha
  held n hn := by
    unfold pointAfterLoad at hn
    split at hn
    · next hq => exact .inr ⟨_, hq, hn⟩
    · cases hn
    · cases hn
    · cases hn
  outstation := .inl hk
  room := by
    have hres : (pointAfterLoad (s.points.get? key) a isCount).resolved = true := by
      unfold pointAfterLoad
      split <;> rfl
    cases hq : s.points.get? key with
    | some q => exact .inl ⟨q, rfl, fun _ => hq ▸ hres⟩
    | none =>
      simp only [Table.has, hq, Option.isSome_none, Bool.not_false, true_and, not_le] at hroom
      exact .inr ⟨hroom, .inl (hq ▸ hres)⟩

theorem moves_pointLoad (h : pointLoad fs s = .ok t) : Moves s t := by
  unfold pointLoad at h
  repeat' split at h
  all_goals cases h
  next key hkey _ _ _ ha hroom =>
  exact (Move.putPoint s (State.pointFits_load (pointKeyOf_ok hkey) (by simpa using ha) hroom)).moves

theorem moves_pointErase (h : pointErase fs s = .ok t) : Moves s t := by
  unfold pointErase at h
  split at h <;> cases h
  exact (Move.erasePoint s _).moves

theorem moves_faultProfileLoad (h : faultProfileLoad fs s = .ok t) : Moves s t := by
  unfold faultProfileLoad at h
  repeat' split at h
  all_goals cases h
  next p _ _ _ new hnew hm => exact (Move.faultProfile s p (not_not.1 hm) (readFaultProfile_inRange hnew)).moves

theorem moves_faultProfileErase (h : faultProfileErase fs s = .ok t) : Moves s t := by
  unfold faultProfileErase at h
  repeat' split at h
  all_goals cases h
  next p _ hm => exact (Move.faultProfile s p (not_not.1 hm) FaultProfile.inRange_powerOn).moves

theorem moves_storeLoopProfile (s : State) (p : Fin 8) {new : LoopProfile} (hn : new.InRange) :
    Moves s (s.storeLoopProfile p new) := by
  have h := moves_gapSome (s.setLoopProfiles (s.loopProfiles.set p.val new p.isLt))
    fun _ x => decide (x.config.loopProfile = some p)
  simp only [decide_eq_true_eq] at h
  exact (Move.loopProfile s p hn).moves.trans h

theorem moves_loopProfileLoad (h : loopProfileLoad fs s = .ok t) : Moves s t := by
  unfold loopProfileLoad at h
  repeat' split at h
  all_goals cases h
  next p _ _ _ new hnew _ => exact moves_storeLoopProfile s p (readLoopProfile_inRange hnew)

theorem moves_loopProfileErase (h : loopProfileErase fs s = .ok t) : Moves s t := by
  unfold loopProfileErase at h
  repeat' split at h
  all_goals cases h
  exact moves_storeLoopProfile s _ LoopProfile.inRange_powerOn

theorem moves_storeStormSettings (s : State) {se sx q : Nat} (he : se ≤ 255) (hx : sx ≤ 255) (hq : 1 ≤ q ∧ q ≤ 60) :
    Moves s (s.storeStormSettings se sx q) := by
  refine (Move.storm s ?_).moves
  rintro ⟨-, -, -, -, hc, ho, hoff, hon⟩
  exact ⟨he, hx, hq.1, hq.2, hc, ho, hoff, hon⟩

theorem moves_stormLoad (h : stormLoad fs s = .ok t) : Moves s t := by
  unfold stormLoad at h
  repeat' split at h
  all_goals cases h
  exact moves_storeStormSettings s (byteAt_le _ _) (byteAt_le _ _) (by omega)

theorem moves_stormErase (h : stormErase fs s = .ok t) : Moves s t := by
  unfold stormErase at h
  split at h <;> cases h
  exact moves_storeStormSettings s (by decide) (by decide) (by decide)

/-- A beacon started afresh is in range (R166). -/
theorem Beacon.startAfresh_inRange {b : Beacon} (h : b.argument ≤ 65535) (v : Bool) : (b.startAfresh v).InRange := by
  obtain ⟨source, argument, stretch, value, output, count, latch⟩ := b
  cases v
  · simpa [Beacon.startAfresh, Beacon.InRange] using h
  · cases stretch <;> simpa [Beacon.startAfresh, Beacon.turnOn, Stretch.seconds, Beacon.InRange] using h

theorem moves_storeBeacon (s : State) (b : Fin 4) (source : BeaconSource) {argument : Nat} (stretch : Stretch)
    (h : argument ≤ 65535) : Moves s (s.storeBeacon b source argument stretch) :=
  (Move.beacon s b fun _ => Beacon.startAfresh_inRange h _).moves

theorem moves_beaconLoad (h : beaconLoad fs s = .ok t) : Moves s t := by
  unfold beaconLoad at h
  repeat' split at h
  all_goals cases h
  exact moves_storeBeacon s _ _ _ (wordAt_le _ _)

theorem moves_beaconErase (h : beaconErase fs s = .ok t) : Moves s t := by
  unfold beaconErase at h
  split at h <;> cases h
  exact moves_storeBeacon s _ _ _ (Nat.zero_le _)

theorem Beacon.InRange.unlatch {b : Beacon} (h : b.InRange) : b.unlatch.InRange := by
  obtain ⟨ha, hc, hv, hn, hl, hs, hz⟩ := h
  unfold Beacon.unlatch
  split
  · next hlat =>
    have h0 : b.count = 0 := hz hlat
    split
    · next hval => exact ⟨ha, hc, hv, hn, fun _ => hv hval, fun _ => hlat, hz⟩
    · next hval => exact ⟨ha, hc, fun h => absurd h hval, fun h => absurd h0 h, nofun, nofun, hz⟩
  · exact ⟨ha, hc, hv, hn, hl, hs, hz⟩

theorem moves_beaconReset (h : beaconReset fs s = .ok t) : Moves s t := by
  unfold beaconReset at h
  split at h <;> cases h
  exact (Move.beacon s _ Beacon.InRange.unlatch).moves

/-! ## Other directives -/

theorem moves_ackFault (h : ackFault fs s = .ok t) : Moves s t := by
  unfold ackFault at h
  repeat' split at h
  all_goals cases h
  next hc _ r _ =>
  unfold State.acknowledge
  split
  · exact ((Move.acknowledge s _ (by omega)).moves.trans (moves_sendChanged _ _)).trans (moves_settleBeacons _)
  · exact .refl

theorem moves_closeFault (h : closeFault fs s = .ok t) : Moves s t := by
  unfold closeFault at h
  repeat' split at h
  all_goals cases h
  next hm _ r hr => exact (Move.close s (not_not.1 hm) hr).moves.trans (moves_settleBeacons _)

theorem moves_downlink {dest : ReplyTo} (h : downlink dest fs s = .ok t) : Moves s t := by
  unfold downlink at h
  split at h
  · cases h
  · split at h
    · cases h
    · next o ho =>
      dsimp only at h
      repeat' split at h
      all_goals cases h
      next hl _ hp hm hq =>
      obtain ⟨-, ho', -⟩ := keyByte_ok ho
      refine (Move.enqueue s (unitOf o) ⟨?_, ?_, ?_⟩ (by omega) hp (not_not.1 hm)).moves
      · simp only [lineOf, unitOf]; omega
      · dsimp only; omega
      · dsimp only; omega

theorem moves_resync (h : resync fs s = .ok t) : Moves s t := by
  unfold resync at h
  repeat' split at h
  all_goals cases h
  exact (Move.resync s _).moves

end

/-! ## Modes (R174 to R177) -/

theorem moves_enterRun (s : State) {b : Rebuild} (owed : Option ReplyTo) (hm : s.mode = .entering) (hb : s.rebuild = some b)
    (hv : s.rebuildNext b.last = none) : Moves s (s.enterRun owed) :=
  (Move.enterRun s hm hb hv).moves.trans (moves_replyIfOwed _ _ _)

theorem moves_startRun (s : State) (owed : Option ReplyTo) (hm : s.mode = .maintain) : Moves s (s.startRun owed) := by
  have begun : Moves s (s.beginEntering owed) := (Move.beginEntering s owed hm).moves
  refine Relation.ReflTransGen.trans ?_ (moves_settleBeacons _)
  split
  · next hv => exact begun.trans (moves_enterRun _ (b := ⟨none, owed⟩) owed rfl rfl (by simpa using hv))
  · exact begun

theorem moves_leaveRun (s : State) (hm : s.mode = .run) : Moves s s.leaveRun :=
  (Move.leaveRun s hm).moves.trans (moves_settleBeacons _)

/-! ## Walks (R129 to R139) -/

theorem faultFrame_setAbsorber (s : State) (d : Nat) (z : Option Nat) : FaultFrame s (s.setAbsorber d z) :=
  faultFrame_adjustAsset s d _ (fun _ => rfl) fun _ => rfl

theorem faultFrame_rebuildUnder (s : State) (v h : Nat) (x : Asset) : FaultFrame s (s.rebuildUnder v h x) := by
  have absorbed : FaultFrame s (match x.faultId with
      | some own => s.absorbRecord own v ((s.faultIdOf h).getD 0)
      | none => s) := by
    split
    · exact faultFrame_absorbRecord _ _ _ _
    · exact .refl s
  have left (t : State) : FaultFrame t (if x.waiting then t.leaveWaiting v else t) := by
    split
    · exact faultFrame_leaveWaiting _ _
    · exact .refl t
  unfold State.rebuildUnder
  dsimp only
  split
  · exact (absorbed.trans (left _)).trans (faultFrame_raiseOn _ _)
  · exact absorbed.trans (left _)

/-- One visit of the rebuild is the work of the fault table. -/
theorem faultFrame_rebuildAt (s : State) (v : Nat) : FaultFrame s (s.rebuildAt v) := by
  unfold State.rebuildAt
  split
  · exact .refl s
  · dsimp only
    split
    · exact (faultFrame_setAbsorber _ _ _).trans (faultFrame_rebuildUnder _ _ _ _)
    · split
      · exact (faultFrame_setAbsorber _ _ _).trans (faultFrame_openFault _ _)
      · exact faultFrame_setAbsorber _ _ _

theorem moves_rebuildVisit (s : State) : Moves s s.rebuildVisit := by
  unfold State.rebuildVisit
  split
  · next b hm hb =>
    split
    · next hv => exact moves_enterRun s b.owed hm hb hv
    · next v hv =>
      have visited := (Move.rebuildVisit s hm hb hv).moves
      dsimp only
      split
      · next hlast =>
        refine visited.trans (moves_enterRun _ (b := { b with last := some v }) b.owed ?_ rfl (by simpa using hlast))
        exact (faultFrame_rebuildAt s v).mode.trans hm
      · exact visited
  · exact .refl

theorem moves_beforeRebuild (s : State) : Moves s (if s.entersRun then s.finishOwed else s) := by
  split
  · exact moves_finishOwed s
  · exact .refl

/-! ## Every command -/

theorem moves_keptByReplies (s : State) : KeptByReplies (Moves s) := fun t dest code data h =>
  h.trans (moves_reply t dest code data)

/-- A LOAD or ERASE is refused while ENTERING before its own checks (R186). -/
theorem moves_tableEdit {s : State} {addr : Byte} {req : CodedRequest}
    {edit : List Byte → State → Except ReplyCode State}
    (h : ∀ fs t, s.mode ≠ .entering → edit fs s = .ok t → Moves s t) : NextMeets (Moves s) (tableEdit addr req s edit) := by
  refine nextMeets_directive .refl fun dest => ?_
  split
  · exact moves_reply s _ _ _
  · next hm =>
    split
    · exact moves_reply s _ _ _
    · exact (moves_keptByReplies s).answer .refl (fun t => h _ t hm) dest

theorem moves_tableRead (s : State) {addr : Byte} {req : CodedRequest}
    {read : List Byte → State → Except ReplyCode (List Byte)} : NextMeets (Moves s) (tableRead addr req s read) :=
  (moves_keptByReplies s).tableRead .refl

theorem moves_answered {s : State} {addr tag : Byte} {f : State → Except ReplyCode State}
    (h : ∀ t, f s = .ok t → Moves s t) : NextMeets (Moves s) (directive addr tag s fun dest s => s.answer dest (f s)) :=
  nextMeets_directive .refl fun dest => (moves_keptByReplies s).answer .refl h dest

theorem moves_unlessHeld {s : State} {f : State → State} (h : Moves s (f s)) : NextMeets (Moves s) (unlessHeld s f) :=
  nextMeets_unlessHeld .refl h

theorem moves_execTime (s : State) (addr : Byte) (req : Request) : NextMeets (Moves s) (execTime addr req s) := by
  refine nextMeets_groupDirective .refl fun dest => ?_
  dsimp only
  split
  · exact moves_replyIfOwed s _ _
  · exact ((moves_finishOwed s).trans (moves_takeTime _ (by omega) (by omega))).trans (moves_replyIfOwed _ _ _)

theorem moves_execModeRun (s : State) (addr : Byte) (req : CodedRequest) : NextMeets (Moves s) (execModeRun addr req s) := by
  refine nextMeets_groupDirective .refl fun dest => ?_
  split
  · exact moves_replyIfOwed s _ _
  · exact moves_replyIfOwed s _ _
  · exact moves_replyIfOwed s _ _
  · next hm _ => exact (moves_finishOwed s).trans (moves_startRun _ dest ((tickFrame_finishOwed s).mode.trans hm))

theorem moves_execModeMaintain (s : State) (addr : Byte) (req : CodedRequest) :
    NextMeets (Moves s) (execModeMaintain addr req s) := by
  refine nextMeets_groupDirective .refl fun dest => ?_
  split
  · exact moves_replyIfOwed s _ _
  · exact moves_replyIfOwed s _ _
  · exact moves_replyIfOwed s _ _
  · next hm _ =>
    exact ((moves_finishOwed s).trans (moves_leaveRun _ ((tickFrame_finishOwed s).mode.trans hm))).trans
      (moves_replyIfOwed _ _ _)

theorem moves_execRestart {s : State} {addr : Byte} {req : CodedRequest} {f : State → State} (h : Moves s (f s)) :
    NextMeets (Moves s) (groupDirective addr req.tag s fun dest s =>
      match req.fields? with
      | none => s.replyIfOwed dest .badEntry
      | some _ => f s) := by
  refine nextMeets_groupDirective .refl fun dest => ?_
  split
  · exact moves_replyIfOwed s _ _
  · exact h

theorem moves_execDownlink (s : State) (addr : Byte) (req : Request) : NextMeets (Moves s) (execDownlink addr req s) := by
  refine nextMeets_directive .refl fun dest => ?_
  split
  · exact moves_reply s _ _ _
  · next ht => exact moves_downlink ht

theorem moves_execList (s : State) (addr : Byte) (req : Request) : NextMeets (Moves s) (execList addr req s) :=
  nextMeets_directive .refl fun dest => (moves_keptByReplies s).report .refl dest _

theorem moves_execUnknownKind (s : State) (addr kind : Byte) (req : Request) :
    NextMeets (Moves s) (execUnknownKind addr kind req s) :=
  nextMeets_directive .refl fun dest => moves_reply s dest _ _

theorem moves_execStatus (s : State) (addr : Byte) (req : StatusRequest) : NextMeets (Moves s) (execStatus addr req s) := by
  refine nextMeets_directive .refl fun dest => ?_
  split <;> exact moves_reply s _ _ _

theorem moves_execStatusClear (s : State) (addr : Byte) (req : StatusRequest) :
    NextMeets (Moves s) (execStatusClear addr req s) := by
  refine nextMeets_directive .refl fun dest => ?_
  split
  · exact (Move.clearCounters s).moves.trans (moves_reply _ _ _ _)
  · exact moves_reply s _ _ _

theorem moves_execPollChoose (s : State) (k : Fin 4) : NextMeets (Moves s) (execPollChoose k s) := by
  refine moves_unlessHeld ?_
  split
  · next h => exact moves_choosePolled s k h.1 h.2
  · exact .refl

theorem moves_execExceptionChoose (s : State) (k : Fin 4) : NextMeets (Moves s) (execExceptionChoose k s) := by
  refine moves_unlessHeld ?_
  split
  · next h => exact moves_chooseException s k h.2
  · exact .refl

theorem moves_execSweepSent (s : State) (k : Fin 4) : NextMeets (Moves s) (execSweepSent k s) := by
  refine moves_unlessHeld ?_
  split
  · next t ht =>
    split
    · exact (Move.startTimer s k ht).moves
    · exact .refl
  · exact .refl

theorem moves_execOrderSent (s : State) (k : Fin 4) : NextMeets (Moves s) (execOrderSent k s) := by
  refine moves_unlessHeld ?_
  split
  · next t ht =>
    split
    · exact (Move.startTimer s k ht).moves
    · exact .refl
  · exact .refl

/-- A timeout counted leaves the rest of the line. -/
theorem State.countOn_line (s : State) (k : Fin 4) (f : LineCounters → LineCounters) :
    (s.countOn k f).line k = { s.line k with counters := f (s.line k).counters } := by simp [State.countOn]

theorem moves_execSweepTimeout (s : State) (k : Fin 4) : NextMeets (Moves s) (execSweepTimeout k s) := by
  refine moves_unlessHeld ?_
  split
  · next t ht =>
    obtain ⟨htr, -, hp, hm⟩ := State.awaitedOn_eq_some ht
    have counted : Moves s (s.countOn k .timeout) := (Move.count s k fun _ h => h.timeout).moves
    have htr' : ((s.countOn k .timeout).line k).transaction = some t := by rw [State.countOn_line]; exact htr
    split
    · next hk =>
      split
      · next hr =>
        exact counted.trans (Move.resend _ k htr' hk.1 (by rw [State.countOn_line]; exact hr)).moves
      · exact (counted.trans (moves_failTransaction _ k htr' (by rw [State.countOn_line]; exact hp) hm)).trans
          (moves_settleBeacons _)
    · exact .refl
  · exact .refl

theorem moves_execOrderTimeout (s : State) (k : Fin 4) : NextMeets (Moves s) (execOrderTimeout k s) := by
  refine moves_unlessHeld ?_
  split
  · next t ht =>
    split
    · next e hk _ =>
      refine .trans (.trans (Move.count s k fun _ h => h.timeout).moves (Move.drop _ k (t := t) ?_ ?_).moves)
        (moves_reply _ _ _ _)
      · rw [State.countOn_line]
        exact (State.awaitedOn_eq_some ht).1
      · exact .inl (by rw [hk]; rfl)
    · exact .refl
  · exact .refl

/-- Every command is a run of moves. -/
theorem exec_moves (c : Instr) (s : State) : NextMeets (Moves s) (exec c s) := by
  cases c with
  | partLoad addr req => exact moves_tableEdit fun _ _ _ => moves_partLoad
  | lineLoad addr req => exact moves_tableEdit fun _ _ _ => moves_lineLoad
  | outstationLoad addr req => exact moves_tableEdit fun _ _ _ => moves_outstationLoad
  | assetLoad addr req => exact moves_tableEdit fun _ _ => moves_assetLoad
  | pointLoad addr req => exact moves_tableEdit fun _ _ _ => moves_pointLoad
  | faultProfileLoad addr req => exact moves_tableEdit fun _ _ _ => moves_faultProfileLoad
  | loopProfileLoad addr req => exact moves_tableEdit fun _ _ _ => moves_loopProfileLoad
  | stormLoad addr req => exact moves_tableEdit fun _ _ _ => moves_stormLoad
  | beaconLoad addr req => exact moves_tableEdit fun _ _ _ => moves_beaconLoad
  | partErase addr req => exact moves_tableEdit fun _ _ _ => moves_partErase
  | lineErase addr req => exact moves_tableEdit fun _ _ _ => moves_lineErase
  | outstationErase addr req => exact moves_tableEdit fun _ _ _ => moves_outstationErase
  | assetErase addr req => exact moves_tableEdit fun _ _ => moves_assetErase
  | pointErase addr req => exact moves_tableEdit fun _ _ _ => moves_pointErase
  | faultProfileErase addr req => exact moves_tableEdit fun _ _ _ => moves_faultProfileErase
  | loopProfileErase addr req => exact moves_tableEdit fun _ _ _ => moves_loopProfileErase
  | stormErase addr req => exact moves_tableEdit fun _ _ _ => moves_stormErase
  | beaconErase addr req => exact moves_tableEdit fun _ _ _ => moves_beaconErase
  | partRead addr req => exact moves_tableRead s
  | lineRead addr req => exact moves_tableRead s
  | outstationRead addr req => exact moves_tableRead s
  | assetRead addr req => exact moves_tableRead s
  | pointRead addr req => exact moves_tableRead s
  | faultProfileRead addr req => exact moves_tableRead s
  | loopProfileRead addr req => exact moves_tableRead s
  | stormRead addr req => exact moves_tableRead s
  | beaconRead addr req => exact moves_tableRead s
  | list addr req => exact moves_execList s addr req
  | faultById addr req => exact moves_tableRead s
  | faultByAsset addr req => exact moves_tableRead s
  | ack addr req => exact moves_answered fun _ => moves_ackFault
  | close addr req => exact moves_answered fun _ => moves_closeFault
  | time addr req => exact moves_execTime s addr req
  | modeRun addr req => exact moves_execModeRun s addr req
  | modeMaintain addr req => exact moves_execModeMaintain s addr req
  | restartRuntime addr req => exact moves_execRestart (Move.restartRuntime s).moves
  | restartFull addr req => exact moves_execRestart (Move.restartFull s).moves
  | downlink addr req => exact moves_execDownlink s addr req
  | resync addr req => exact moves_answered fun _ => moves_resync
  | beaconReset addr req => exact moves_answered fun _ => moves_beaconReset
  | status addr req => exact moves_execStatus s addr req
  | statusClear addr req => exact moves_execStatusClear s addr req
  | unknownKind addr kind req => exact moves_execUnknownKind s addr kind req
  | trunkCheckFail cause =>
    refine moves_unlessHeld (f := fun s => s.setTrunk { s.trunk with checkFails := bump s.trunk.checkFails }) ?_
    exact (Move.checkFail s).moves
  | trunkFrameIgnored addr kind =>
    refine moves_unlessHeld (f := fun s => s) ?_
    exact .refl
  | powerOn => exact nextMeets_next (Move.powerOn s).moves
  | transmitBegin =>
    refine moves_unlessHeld (f := fun s => s.setTrunk (s.trunk.begun s.storm.on)) ?_
    exact (Move.transmit s).moves
  | transmitComplete =>
    refine moves_unlessHeld (f := fun s => s.setTrunk { s.trunk with sending := none }) ?_
    exact (Move.hush s).moves
  | tally line addr payload =>
    refine moves_unlessHeld (f := fun s => s.fieldFrame line addr tallyKind payload) ?_
    exact moves_fieldFrame s line addr _ payload
  | quiet line addr payload =>
    refine moves_unlessHeld (f := fun s => s.fieldFrame line addr quietKind payload) ?_
    exact moves_fieldFrame s line addr _ payload
  | fieldFrameDiscard line bytes =>
    refine moves_unlessHeld (f := fun s => s.fieldBytes line bytes) ?_
    exact moves_fieldBytes s line bytes
  | stray line addr kind payload =>
    refine moves_unlessHeld (f := fun s => s.fieldFrame line addr kind payload) ?_
    exact moves_fieldFrame s line addr kind payload
  | pollChoose line => exact moves_execPollChoose s line
  | exceptionChoose line => exact moves_execExceptionChoose s line
  | sweepSent line => exact moves_execSweepSent s line
  | orderSent line => exact moves_execOrderSent s line
  | sweepTimeout line => exact moves_execSweepTimeout s line
  | orderTimeout line => exact moves_execOrderTimeout s line
  | secondTick =>
    refine moves_unlessHeld (f := fun s => s.finishOwed.tickSecond) ?_
    exact (moves_finishOwed s).trans (moves_tickSecond _)
  | minuteTick =>
    refine moves_unlessHeld (f := fun s => s.finishOwed.tickMinute) ?_
    exact (moves_finishOwed s).trans (moves_tickMinute _)
  | lineSecondWork line =>
    refine moves_unlessHeld ?_
    exact moves_doOwed s _
  | beaconStretchTick beacon =>
    refine moves_unlessHeld ?_
    exact moves_doOwed s _
  | rankerMinuteEvent =>
    refine moves_unlessHeld ?_
    exact moves_doOwed s _
  | windowCloseEvent =>
    refine moves_unlessHeld ?_
    exact moves_doOwed s _
  | stormMinuteEvent =>
    refine moves_unlessHeld ?_
    exact moves_doOwed s _
  | walkBegin =>
    refine moves_unlessHeld (f := fun s => s.beginWalk) ?_
    exact (Move.beginWalk s).moves
  | absorbVisit =>
    refine moves_unlessHeld (f := fun s => s.absorbVisit.settleBeacons) ?_
    exact (Move.absorbVisit s).moves.trans (moves_settleBeacons _)
  | releaseVisit =>
    refine moves_unlessHeld (f := fun s => s.releaseVisit.settleBeacons) ?_
    exact (Move.releaseVisit s).moves.trans (moves_settleBeacons _)
  | rebuildVisit =>
    refine moves_unlessHeld (f := fun s => (if s.entersRun then s.finishOwed else s).rebuildVisit.settleBeacons) ?_
    exact ((moves_beforeRebuild s).trans (moves_rebuildVisit _)).trans (moves_settleBeacons _)
  | resetInputActive => exact nextMeets_next ((Move.hold s).moves.trans (Move.hush _).moves)

/-! ## Laws -/

/-- A law that each move keeps and that the queue of commands has no part in. -/
structure Law (P : State → Prop) : Prop where
  move : ∀ {s t : State}, Move s t → P s → P t
  pending : ∀ {s : State} (q : List Instr), P s → P (s.setPending q)

theorem Law.moves {P : State → Prop} (h : Law P) {s t : State} (hm : Moves s t) (hs : P s) : P t := by
  induction hm with
  | refl => exact hs
  | tail _ hm ih => exact h.move hm ih

theorem Law.exec {P : State → Prop} (h : Law P) {s : State} (hs : P s) (c : Instr) : NextMeets P (exec c s) :=
  fun t ht => h.moves (exec_moves c s t ht) hs

/-- A law is kept by every step. -/
theorem Law.step {P : State → Prop} (h : Law P) {s t : State} (hs : P s) (ht : step s = .next t) : P t := by
  cases hp : s.pending with
  | nil =>
    rw [step_nil hp] at ht
    exact Host.Outcome.next.inj ht ▸ hs
  | cons c rest =>
    rw [step_cons hp] at ht
    exact h.exec (h.pending rest hs) c t ht

/-- Two laws are one. -/
theorem Law.and {P Q : State → Prop} (hP : Law P) (hQ : ∀ {s t : State}, Move s t → P s → Q s → Q t)
    (hq : ∀ {s : State} (q : List Instr), Q s → Q (s.setPending q)) : Law fun s => P s ∧ Q s where
  move hm h := ⟨hP.move hm h.1, hQ hm h.1 h.2⟩
  pending q h := ⟨hP.pending q h.1, hq q h.2⟩

end Sys2Proof.Machine
end

section
/-! PROOFS. The fault table's requests, samples and walk visits as runs of single operations on one record, one asset, the
waiting list or the walk list: what ranges, canonical forms and ceilings are read from. -/

namespace Sys2Proof.Machine

/-- A change of a record in severity, n, U and change-due alone, with U within its bound. -/
structure FaultRecord.Tuned (r r' : FaultRecord) : Prop where
  asset : r'.asset = r.asset
  state : r'.state = r.state
  openedRun : r'.openedRun = r.openedRun
  openedDay : r'.openedDay = r.openedDay
  steps : r'.steps = r.steps
  minutes : r'.minutes = r.minutes
  console : r'.console = r.console
  urgency : r.urgency ≤ 65535 → r'.urgency ≤ 65535

/-- A change of an asset in what the fault table and the correlation unit write: the condition reset, a fault ID within its
range, an absorber that is present. -/
structure State.Marked (s : State) (x y : Asset) : Prop where
  config : y.config = x.config
  window : y.window = x.window
  integrator : y.integrator ≤ x.integrator
  absorbedBy : ∀ z ∈ y.absorbedBy, z ∈ x.absorbedBy ∨ s.asset? z ≠ none
  faultId : ∀ id ∈ y.faultId, id ∈ x.faultId ∨ (1 ≤ s.nextId ∧ s.nextId ≤ 65535 → 1 ≤ id ∧ id ≤ 65535)

/-- One operation of the fault table. -/
inductive FaultOp : State → State → Prop
  | record (s : State) (id : Nat) {f : FaultRecord → FaultRecord} (hf : ∀ r : FaultRecord, r.Tuned (f r)) :
      FaultOp s (s.adjustRecord id f)
  | mark (s : State) (a : Nat) {f : Asset → Asset} (hf : ∀ x, s.Marked x (f x)) : FaultOp s (s.adjustAsset a f)
  | sampled (s : State) {a : Nat} {x : Asset} (hx : s.asset? a = some x) (w : Condition) :
      FaultOp s (s.putAsset a (x.sampled (s.faultProfile x.config.faultProfile) w))
  | create (s : State) {a id : Nat} {x : Asset} (hx : s.asset? a = some x) (severity : Severity)
      (hid : 1 ≤ s.nextId ∧ s.nextId ≤ 65535 → 1 ≤ id ∧ id ≤ 65535) :
      FaultOp s (s.setRecords (s.records.put id (s.newRecord a x severity)))
  | discard (s : State) (id : Nat) : FaultOp s (s.setRecords (s.records.del id))
  | nextId (s : State) {n : Nat} (hn : 1 ≤ s.nextId ∧ s.nextId ≤ 65535 → 1 ≤ n ∧ n ≤ 65535) : FaultOp s (s.setNextId n)
  | waiting (s : State) {w : List Nat} (hw : ∀ a ∈ w, a ∈ s.waiting ∨ s.asset? a ≠ none) : FaultOp s (s.setWaiting w)
  | queue (s : State) {a : Nat} (ha : s.hasChild a = true) (kind : WalkKind) : FaultOp s (s.queueWalk a kind)
  | notify (s : State) (n : Notice) (hn : (FrameBody.notice n).rank = 1 := by rfl) : FaultOp s (s.notify n)
  | countOpen (s : State) : FaultOp s s.countOpen

/-- A run of operations of the fault table. -/
abbrev FaultOps : State → State → Prop := Relation.ReflTransGen FaultOp

theorem FaultOp.ops {s t : State} (h : FaultOp s t) : FaultOps s t := .single h

theorem FaultOps.foldl {β : Type} {f : State → β → State} (h : ∀ s b, FaultOps s (f s b)) (l : List β) (s : State) :
    FaultOps s (l.foldl f s) := by
  induction l generalizing s with
  | nil => exact .refl
  | cons b l ih => exact (h s b).trans (ih _)

/-! ## Records -/

theorem FaultRecord.Tuned.refl (r : FaultRecord) : r.Tuned r := ⟨rfl, rfl, rfl, rfl, rfl, rfl, rfl, id⟩

theorem FaultRecord.Tuned.trans {r r' r'' : FaultRecord} (h : r.Tuned r') (k : r'.Tuned r'') : r.Tuned r'' :=
  ⟨k.asset.trans h.asset, k.state.trans h.state, k.openedRun.trans h.openedRun, k.openedDay.trans h.openedDay,
    k.steps.trans h.steps, k.minutes.trans h.minutes, k.console.trans h.console, k.urgency ∘ h.urgency⟩

theorem urgencyOf_le (p : FaultProfile) (severity : Severity) (weight absorbed steps : Nat) :
    urgencyOf p severity weight absorbed steps ≤ 65535 := Nat.min_le_left _ _

/-- A refresh changes U and change-due alone (R145). -/
theorem State.refreshed_tuned (s : State) (r : FaultRecord) : r.Tuned (s.refreshed r) := by
  unfold State.refreshed
  split
  · exact .refl r
  · dsimp only
    split
    · exact .refl r
    · exact ⟨rfl, rfl, rfl, rfl, rfl, rfl, rfl, fun _ => urgencyOf_le _ _ _ _ _⟩

theorem FaultRecord.Tuned.refreshed {r r' : FaultRecord} (h : r.Tuned r') (s : State) : r.Tuned (s.refreshed r') :=
  h.trans (s.refreshed_tuned r')

theorem faultOps_onRecordOf (s : State) (a : Nat) {f : FaultRecord → FaultRecord} (hf : ∀ r : FaultRecord, r.Tuned (f r)) :
    FaultOps s (s.onRecordOf a f) := by
  unfold State.onRecordOf
  split
  · exact (FaultOp.record s _ hf).ops
  · exact .refl

theorem faultOps_raiseOn (s : State) (a : Nat) : FaultOps s (s.raiseOn a) := by
  refine faultOps_onRecordOf s a fun r => .refreshed ?_ s
  exact ⟨rfl, rfl, rfl, rfl, rfl, rfl, rfl, id⟩

theorem faultOps_lowerOn (s : State) (a : Nat) : FaultOps s (s.lowerOn a) := by
  refine faultOps_onRecordOf s a fun r => .refreshed ?_ s
  exact ⟨rfl, rfl, rfl, rfl, rfl, rfl, rfl, id⟩

theorem faultOps_refreshOn (s : State) (a : Nat) : FaultOps s (s.refreshOn a) := faultOps_onRecordOf s a s.refreshed_tuned

theorem faultOps_severityRaised (s : State) (a : Nat) : FaultOps s (s.severityRaised a) := by
  refine faultOps_onRecordOf s a fun r => ?_
  have failed : r.Tuned { r with severity := .fail } := ⟨rfl, rfl, rfl, rfl, rfl, rfl, rfl, id⟩
  exact (failed.refreshed s).trans ⟨rfl, rfl, rfl, rfl, rfl, rfl, rfl, id⟩

theorem faultOps_countAtCreation (s : State) (a : Nat) : FaultOps s (s.countAtCreation a) := by
  unfold State.countAtCreation
  split
  · exact .refl
  · exact FaultOps.foldl (fun s _ => faultOps_raiseOn s a) _ s

/-! ## Creation (R99 to R103) -/

theorem nextFaultId_range {id : Nat} (h : 1 ≤ id ∧ id ≤ 65535) : 1 ≤ nextFaultId id ∧ nextFaultId id ≤ 65535 := by
  unfold nextFaultId
  split <;> omega

theorem freeIdFrom_range (records : Table FaultRecord) (fuel : Nat) {c : Nat} (h : 1 ≤ c ∧ c ≤ 65535) :
    1 ≤ freeIdFrom records fuel c ∧ freeIdFrom records fuel c ≤ 65535 := by
  induction fuel generalizing c with
  | zero => exact h
  | succ f ih =>
    unfold freeIdFrom
    split
    · exact ih (nextFaultId_range h)
    · exact h

theorem State.freeId_range {s : State} (h : 1 ≤ s.nextId ∧ s.nextId ≤ 65535) : 1 ≤ s.freeId ∧ s.freeId ≤ 65535 :=
  freeIdFrom_range _ _ h

/-- Steps 1 to 4 of a creation, the asset's field written before next-ID moves on: the order makes no difference. -/
theorem State.storeRecord_eq (s : State) (a : Nat) (r : FaultRecord) :
    s.storeRecord a r = (((((s.setRecords (s.records.put s.freeId r)).adjustAsset a fun x =>
      { x with faultId := some s.freeId }).setNextId (nextFaultId s.freeId)).notify (.opened (r.summary s.freeId))).countOpen) :=
  rfl

theorem faultOps_storeRecord (s : State) {a : Nat} {x : Asset} (hx : s.asset? a = some x) (severity : Severity) :
    FaultOps s (s.storeRecord a (s.newRecord a x severity)) := by
  have range : 1 ≤ s.nextId ∧ s.nextId ≤ 65535 → 1 ≤ s.freeId ∧ s.freeId ≤ 65535 := State.freeId_range
  rw [State.storeRecord_eq]
  refine .trans (.trans (.trans (.trans (FaultOp.create s hx severity range).ops (FaultOp.mark _ a fun y => ?_).ops)
    (FaultOp.nextId _ fun h => ?_).ops) (FaultOp.notify _ _).ops) (FaultOp.countOpen _).ops
  · exact ⟨rfl, rfl, le_refl _, fun z hz => .inl hz, fun id hid => .inr fun h => Option.some.inj hid ▸ range h⟩
  · exact nextFaultId_range (range h)

theorem faultOps_createRecord (s : State) (a : Nat) : FaultOps s (s.createRecord a) := by
  unfold State.createRecord
  split
  · exact .refl
  · next x hx =>
    split
    · exact .refl
    · next severity _ =>
      have stored := faultOps_storeRecord s hx severity
      dsimp only
      split
      · next hc =>
        refine (stored.trans (faultOps_countAtCreation _ a)).trans (FaultOp.queue _ ?_ _).ops
        rw [← hc]
        simp only [State.hasChild, State.childrenOf, State.countAtCreation_assets]
      · exact stored

/-! ## The waiting list (R102, R109 to R112) -/

/-- A change of the waiting flag alone. -/
theorem faultOps_flagWaiting (s : State) (a : Nat) (b : Bool) :
    FaultOps s (s.adjustAsset a fun x => { x with waiting := b }) := by
  refine (FaultOp.mark s a fun x => ?_).ops
  exact ⟨rfl, rfl, le_refl _, fun _ h => .inl h, fun _ h => .inl h⟩

theorem faultOps_joinWaiting (s : State) {a : Nat} (ha : s.asset? a ≠ none) : FaultOps s (s.joinWaiting a) := by
  refine .trans (FaultOp.waiting s fun b hb => ?_).ops (faultOps_flagWaiting _ a true)
  rcases List.mem_append.1 hb with h | h
  · exact .inl h
  · exact .inr (List.mem_singleton.1 h ▸ ha)

theorem faultOps_leaveWaiting (s : State) (a : Nat) : FaultOps s (s.leaveWaiting a) :=
  .trans (FaultOp.waiting s fun _ hb => .inl (List.mem_filter.1 hb).1).ops (faultOps_flagWaiting _ a false)

theorem faultOps_serveWaiting (s : State) : FaultOps s s.serveWaiting := by
  unfold State.serveWaiting
  split
  · exact .refl
  · next a rest h =>
    refine .trans (.trans (FaultOp.waiting s fun b hb => .inl ?_).ops (faultOps_flagWaiting _ a false))
      (faultOps_createRecord _ a)
    rw [h]
    exact List.mem_cons_of_mem _ hb

/-! ## Requests (R104 to R113) -/

theorem faultOps_openFault (s : State) (a : Nat) : FaultOps s (s.openFault a) := by
  unfold State.openFault
  split
  · exact .refl
  · next x hx =>
    split
    · exact faultOps_raiseOn s _
    · split
      · exact faultOps_createRecord s a
      · exact faultOps_joinWaiting s (by simp [hx])

theorem faultOps_discardRecord (s : State) (id a : Nat) : FaultOps s (s.discardRecord id a) := by
  have marked (t : State) : FaultOps t (t.adjustAsset a fun x => { x with faultId := none }) := by
    refine (FaultOp.mark t a fun x => ?_).ops
    exact ⟨rfl, rfl, le_refl _, fun _ h => .inl h, by rintro id ⟨⟩⟩
  exact (FaultOp.discard s id).ops.trans (marked _)

theorem faultOps_clearRecord (s : State) (id a : Nat) (manual : Bool) : FaultOps s (s.clearRecord id a manual) := by
  have discarded := (faultOps_discardRecord s id a).trans (FaultOp.notify _ (.cleared id a manual)).ops
  unfold State.clearRecord
  dsimp only
  split
  · next hc => exact (discarded.trans (FaultOp.queue _ hc _).ops).trans (faultOps_serveWaiting _)
  · exact discarded.trans (faultOps_serveWaiting _)

theorem faultOps_absorbRecord (s : State) (id d absorbing : Nat) : FaultOps s (s.absorbRecord id d absorbing) :=
  ((faultOps_discardRecord s id d).trans (FaultOp.notify _ _).ops).trans (faultOps_serveWaiting _)

theorem faultOps_becameHealthy (s : State) (a : Nat) : FaultOps s (s.becameHealthy a) := by
  unfold State.becameHealthy
  split
  · exact .refl
  · split
    · exact faultOps_clearRecord s _ _ _
    · exact faultOps_lowerOn s _
    · split
      · exact faultOps_leaveWaiting s a
      · exact .refl

theorem faultOps_handChange (s : State) (a : Nat) (before after : Health) : FaultOps s (s.handChange a before after) := by
  unfold State.handChange
  split
  · exact faultOps_openFault s a
  · exact faultOps_becameHealthy s a
  · exact faultOps_severityRaised s a
  · exact .refl

theorem faultOps_sample (s : State) (a : Nat) : FaultOps s (s.sample a) := by
  unfold State.sample
  split
  · exact .refl
  · next x hx => exact .trans (FaultOp.sampled s hx _).ops (faultOps_handChange _ a _ _)

theorem faultOps_close (s : State) (id a : Nat) :
    FaultOps s ((s.adjustAsset a fun x => { x with integrator := 0, health := .healthy }).clearRecord id a true) := by
  have reset : FaultOps s (s.adjustAsset a fun x => { x with integrator := 0, health := .healthy }) := by
    refine (FaultOp.mark s a fun x => ?_).ops
    exact ⟨rfl, rfl, Nat.zero_le _, fun _ h => .inl h, fun _ h => .inl h⟩
  exact reset.trans (faultOps_clearRecord _ id a true)

/-! ## Walk visits (R132, R134, R138) -/

theorem faultOps_setAbsorber (s : State) (d : Nat) {z : Option Nat} (hz : ∀ b ∈ z, s.asset? b ≠ none) :
    FaultOps s (s.setAbsorber d z) := by
  refine (FaultOp.mark s d fun x => ?_).ops
  exact ⟨rfl, rfl, le_refl _, fun b hb => .inr (hz b hb), fun _ h => .inl h⟩

/-- Who holds a record is present. -/
theorem State.asset?_ne_none_of_faultIdOf {s : State} {a : Nat} (h : s.faultIdOf a ≠ none) : s.asset? a ≠ none :=
  fun ha => h (by simp [State.faultIdOf, ha])

theorem State.highestHolder_holds {s : State} {d z : Nat} (h : s.highestHolder d = some z) : s.faultIdOf z ≠ none := by
  have := List.find?_some h
  simpa [Option.isSome_iff_ne_none] using this

theorem State.highestHolder_present {s : State} {d : Nat} : ∀ z ∈ s.highestHolder d, s.asset? z ≠ none :=
  fun _ hz => State.asset?_ne_none_of_faultIdOf (State.highestHolder_holds hz)

theorem faultOps_absorbAt (s : State) {a : Nat} (id d : Nat) (ha : s.asset? a ≠ none) : FaultOps s (s.absorbAt a id d) := by
  unfold State.absorbAt
  split
  · exact .refl
  · next x _ =>
    split
    · exact .refl
    · have lowered (t : State) : FaultOps t (match x.faulty, x.absorbedBy with
          | true, some z => t.lowerOn z
          | _, _ => t) := by
        split
        · exact faultOps_lowerOn _ _
        · exact .refl
      have raised (t : State) : FaultOps t (if x.faulty then t.raiseOn a else t) := by
        split
        · exact faultOps_raiseOn _ _
        · exact .refl
      have absorbed (t : State) : FaultOps t (match x.faultId with
          | some own => t.absorbRecord own d id
          | none => t) := by
        split
        · exact faultOps_absorbRecord _ _ _ _
        · exact .refl
      have named : FaultOps s (s.setAbsorber d (some a)) :=
        faultOps_setAbsorber s d fun b hb => Option.some.inj hb ▸ ha
      have done := ((named.trans (lowered _)).trans (raised _)).trans (absorbed _)
      dsimp only
      split
      · exact done.trans (faultOps_leaveWaiting _ _)
      · exact done

theorem faultOps_releaseAt (s : State) (a d : Nat) : FaultOps s (s.releaseAt a d) := by
  unfold State.releaseAt
  split
  · exact .refl
  · split
    · split
      · next z hz =>
        have named : FaultOps s (s.setAbsorber d (some z)) :=
          faultOps_setAbsorber s d fun b hb => Option.some.inj hb ▸ State.highestHolder_present z hz
        dsimp only
        split
        · exact named.trans (faultOps_raiseOn _ _)
        · exact named
      · have named : FaultOps s (s.setAbsorber d none) := faultOps_setAbsorber s d (by rintro b ⟨⟩)
        dsimp only
        split
        · exact named.trans (faultOps_openFault _ _)
        · exact named
    · exact .refl

theorem faultOps_rebuildUnder (s : State) (v h : Nat) (x : Asset) : FaultOps s (s.rebuildUnder v h x) := by
  have absorbed : FaultOps s (match x.faultId with
      | some own => s.absorbRecord own v ((s.faultIdOf h).getD 0)
      | none => s) := by
    split
    · exact faultOps_absorbRecord _ _ _ _
    · exact .refl
  have left (t : State) : FaultOps t (if x.waiting then t.leaveWaiting v else t) := by
    split
    · exact faultOps_leaveWaiting _ _
    · exact .refl
  unfold State.rebuildUnder
  dsimp only
  split
  · exact (absorbed.trans (left _)).trans (faultOps_raiseOn _ _)
  · exact absorbed.trans (left _)

theorem faultOps_rebuildAt (s : State) (v : Nat) : FaultOps s (s.rebuildAt v) := by
  have named : FaultOps s (s.setAbsorber v (s.highestHolder v)) := faultOps_setAbsorber s v State.highestHolder_present
  unfold State.rebuildAt
  split
  · exact .refl
  · dsimp only
    split
    · exact named.trans (faultOps_rebuildUnder _ _ _ _)
    · split
      · exact named.trans (faultOps_openFault _ _)
      · exact named

/-- A walk with nothing more to do: no descendant left, or a root that has lost the record noted, or that holds one again
(R131, R133). -/
def State.Spent (s : State) (w : Walk) : Prop :=
  s.walkNext w = none ∨ (w.kind = .absorb ∧ (w.recorded = none ∨ s.faultIdOf w.root ≠ w.recorded))
    ∨ (w.kind = .release ∧ s.faultIdOf w.root ≠ none)

/-- A visit of an ABSORB walk ends the walk, or is the work of the fault table on the next descendant, before the walk
moves on (R131). -/
theorem State.absorbVisit_cases (s : State) :
    s.absorbVisit = s ∨ (s.absorbVisit = s.setWalk none ∧ ∀ w ∈ s.walk, s.Spent w)
      ∨ ∃ w id cursor, s.mode = .run ∧ s.walk = some w ∧ w.kind = .absorb ∧ w.recorded = some id
          ∧ s.faultIdOf w.root = some id ∧ s.walkNext w = some cursor
          ∧ s.absorbVisit = (s.absorbAt w.root id (cursor.getLastD w.root)).advanceWalk w cursor := by
  unfold State.absorbVisit
  split
  · next w hm hw =>
    have spent (h : s.Spent w) : ∀ w' ∈ s.walk, s.Spent w' := fun w' hw' => Option.some.inj (hw.symm.trans hw') ▸ h
    split
    · next hk =>
      split
      · next hid => exact .inr (.inl ⟨rfl, spent (.inr (.inl ⟨hk, .inl hid⟩))⟩)
      · next id hid =>
        split
        · next hr => exact .inr (.inl ⟨rfl, spent (.inr (.inl ⟨hk, .inr (hid ▸ hr)⟩))⟩)
        · next hr =>
          split
          · next hc => exact .inr (.inl ⟨rfl, spent (.inl hc)⟩)
          · next cursor hc => exact .inr (.inr ⟨w, id, cursor, hm, hw, hk, hid, not_not.1 hr, hc, rfl⟩)
    · exact .inl rfl
  · exact .inl rfl

/-- As `State.absorbVisit_cases`, of a RELEASE walk (R133). -/
theorem State.releaseVisit_cases (s : State) :
    s.releaseVisit = s ∨ (s.releaseVisit = s.setWalk none ∧ ∀ w ∈ s.walk, s.Spent w)
      ∨ ∃ w cursor, s.mode = .run ∧ s.walk = some w ∧ w.kind = .release ∧ s.faultIdOf w.root = none
          ∧ s.walkNext w = some cursor
          ∧ s.releaseVisit = (s.releaseAt w.root (cursor.getLastD w.root)).advanceWalk w cursor := by
  unfold State.releaseVisit
  split
  · next w hm hw =>
    have spent (h : s.Spent w) : ∀ w' ∈ s.walk, s.Spent w' := fun w' hw' => Option.some.inj (hw.symm.trans hw') ▸ h
    split
    · next hk =>
      split
      · next hr => exact .inr (.inl ⟨rfl, spent (.inr (.inr ⟨hk, Option.isSome_iff_ne_none.1 hr⟩))⟩)
      · next hr =>
        split
        · next hc => exact .inr (.inl ⟨rfl, spent (.inl hc)⟩)
        · next cursor hc => exact .inr (.inr ⟨w, cursor, hm, hw, hk, by simpa using hr, hc, rfl⟩)
    · exact .inl rfl
  · exact .inl rfl

/-! ## What an operation keeps -/

/-- What every operation of the fault table keeps, every run of them keeps. -/
theorem FaultOps.keep {P : State → Prop} (h : ∀ {s t : State}, FaultOp s t → P s → P t) {s t : State} (ht : FaultOps s t)
    (hs : P s) : P t := by
  induction ht with
  | refl => exact hs
  | tail _ hop ih => exact h hop ih

end Sys2Proof.Machine
end

section
/-! PROOFS. Every step keeps the tables canonical and within their capacities (R21, R45, R98, R127). -/

namespace Sys2Proof.Machine

/-! ## Station addresses (R21) -/

/-- No two stations of a line share an address, as the table is read. -/
def StationsDistinct (t : Table Outstation) : Prop :=
  ∀ o x o' x', t.get? o = some x → t.get? o' = some x' → lineOf o = lineOf o' → x.config.address = x'.config.address →
    o = o'

theorem stationsDistinct_iff {t : Table Outstation} (h : t.wf = true) :
    StationsDistinct t ↔ ∀ e ∈ t, ∀ e' ∈ t, lineOf e.1 = lineOf e'.1 → e.2.config.address = e'.2.config.address →
      e.1 = e'.1 :=
  ⟨fun hd e he e' he' => hd e.1 e.2 e'.1 e'.2 (Table.get?_of_mem h he) (Table.get?_of_mem h he'),
    fun hd _ _ _ _ hx hx' => hd _ (Table.mem_of_get? hx) _ (Table.mem_of_get? hx')⟩

/-- Entries may change so long as each station keeps its address. -/
theorem StationsDistinct.of_addresses {t u : Table Outstation} (h : StationsDistinct t)
    (hu : ∀ o y, u.get? o = some y → ∃ x, t.get? o = some x ∧ x.config.address = y.config.address) :
    StationsDistinct u := by
  intro o y o' y' hy hy' hl ha
  obtain ⟨x, hx, hxy⟩ := hu o y hy
  obtain ⟨x', hx', hxy'⟩ := hu o' y' hy'
  exact h o x o' x' hx hx' hl (by rw [hxy, hxy', ha])

theorem StationsDistinct.mapAll {t : Table Outstation} (h : StationsDistinct t) {f : Nat → Outstation → Outstation}
    (hf : ∀ o x, (f o x).config = x.config) : StationsDistinct (t.mapAll f) := by
  refine h.of_addresses fun o y hy => ?_
  rw [Table.get?_mapAll, Option.map_eq_some_iff] at hy
  obtain ⟨x, hx, rfl⟩ := hy
  exact ⟨x, hx, by rw [hf]⟩

theorem StationsDistinct.adjust {t : Table Outstation} (h : StationsDistinct t) (o : Nat) {f : Outstation → Outstation}
    (hf : ∀ x, (f x).config = x.config) : StationsDistinct (t.adjust o f) := by
  rw [Table.adjust_eq_mapAll]
  refine h.mapAll fun o' x => ?_
  split
  · exact hf x
  · rfl

/-- A record put back under its index with its address. -/
theorem StationsDistinct.put {t : Table Outstation} (h : StationsDistinct t) {o : Nat} {x y : Outstation}
    (hx : t.get? o = some x) (hy : y.config.address = x.config.address) : StationsDistinct (t.put o y) := by
  refine h.of_addresses fun o' y' hy' => ?_
  by_cases ho : o' = o
  · subst ho
    rw [Table.get?_put_self] at hy'
    cases hy'
    exact ⟨x, hx, hy.symm⟩
  · rw [Table.get?_put_of_ne _ _ ho] at hy'
    exact ⟨y', hy', rfl⟩

/-! ## The canonical form -/

/-- The keyed tables, whose canonical form the law is. -/
def State.tables (s : State) : Table Asset × Table Outstation × Table Point × Table FaultRecord :=
  (s.assets, s.outstations, s.points, s.records)

theorem State.Canonical.of_tables {s t : State} (h : s.Canonical) (ht : t.tables = s.tables) : t.Canonical := by
  simp only [State.tables, Prod.mk.injEq] at ht
  obtain ⟨ha, ho, hp, hr⟩ := ht
  exact ⟨ha ▸ h.1, ho ▸ h.2.1, hp ▸ h.2.2.1, hr ▸ h.2.2.2⟩

theorem State.Canonical.setAssets {s : State} (h : s.Canonical) {x : Table Asset} (hx : x.wf = true) :
    (s.setAssets x).Canonical := ⟨hx, h.2⟩

theorem State.Canonical.mapAssets {s : State} (h : s.Canonical) (f : Nat → Asset → Asset) :
    (s.setAssets (s.assets.mapAll f)).Canonical := h.setAssets (Table.wf_mapAll h.1 f)

theorem State.Canonical.putAsset {s : State} (h : s.Canonical) (a : Nat) (x : Asset) : (s.putAsset a x).Canonical :=
  h.setAssets (Table.wf_put h.1 a x)

theorem State.Canonical.setOutstations {s : State} (h : s.Canonical) {x : Table Outstation} (hx : x.wf = true) :
    (s.setOutstations x).Canonical := ⟨h.1, hx, h.2.2⟩

theorem State.Canonical.mapOutstations {s : State} (h : s.Canonical) (f : Nat → Outstation → Outstation) :
    (s.setOutstations (s.outstations.mapAll f)).Canonical := h.setOutstations (Table.wf_mapAll h.2.1 f)

theorem State.Canonical.adjustOutstation {s : State} (h : s.Canonical) (o : Nat) (f : Outstation → Outstation) :
    (s.adjustOutstation o f).Canonical := h.setOutstations (Table.wf_adjust h.2.1 o f)

theorem State.Canonical.setPoints {s : State} (h : s.Canonical) {x : Table Point} (hx : x.wf = true) :
    (s.setPoints x).Canonical := ⟨h.1, h.2.1, hx, h.2.2.2⟩

theorem State.Canonical.setRecords {s : State} (h : s.Canonical) {x : Table FaultRecord} (hx : x.wf = true) :
    (s.setRecords x).Canonical := ⟨h.1, h.2.1, h.2.2.1, hx⟩

theorem State.Canonical.adjustRecord {s : State} (h : s.Canonical) (id : Nat) (f : FaultRecord → FaultRecord) :
    (s.adjustRecord id f).Canonical := h.setRecords (Table.wf_adjust h.2.2.2 id f)

theorem State.canonical_empty {s : State} (h : s.tables = ([], [], [], [])) : s.Canonical := by
  simp only [State.tables, Prod.mk.injEq] at h
  obtain ⟨ha, ho, hp, hr⟩ := h
  exact ⟨by rw [ha]; rfl, by rw [ho]; rfl, by rw [hp]; rfl, by rw [hr]; rfl⟩

theorem FaultOp.canonical {s t : State} (ht : FaultOp s t) (h : s.Canonical) : t.Canonical := by
  cases ht with
  | record id hf => exact h.adjustRecord id _
  | mark a hf => exact h.setAssets (Table.wf_adjust h.1 a _)
  | sampled hx w => exact h.putAsset _ _
  | create hx severity hid => exact h.setRecords (Table.wf_put h.2.2.2 _ _)
  | discard id => exact h.setRecords (Table.wf_del h.2.2.2 id)
  | _ => exact h.of_tables rfl

theorem FaultOps.canonical {s t : State} (ht : FaultOps s t) (h : s.Canonical) : t.Canonical :=
  FaultOps.keep (P := State.Canonical) FaultOp.canonical ht h

/-- A visit of an ABSORB walk is the work of the fault table, before the walk moves on or ends. -/
theorem State.absorbVisit_ops (s : State) : ∃ t w, FaultOps s t ∧ s.absorbVisit = t.setWalk w := by
  obtain he | ⟨he, -⟩ | ⟨w, id, cursor, -, -, -, -, hr, -, he⟩ := s.absorbVisit_cases
  · exact ⟨s, s.walk, .refl, he⟩
  · exact ⟨s, none, .refl, he⟩
  · exact ⟨_, _, faultOps_absorbAt s id _ (State.asset?_ne_none_of_faultIdOf (by simp [hr])), he⟩

/-- As `State.absorbVisit_ops`, of a RELEASE walk. -/
theorem State.releaseVisit_ops (s : State) : ∃ t w, FaultOps s t ∧ s.releaseVisit = t.setWalk w := by
  obtain he | ⟨he, -⟩ | ⟨w, cursor, -, -, -, -, -, he⟩ := s.releaseVisit_cases
  · exact ⟨s, s.walk, .refl, he⟩
  · exact ⟨s, none, .refl, he⟩
  · exact ⟨_, _, faultOps_releaseAt s _ _, he⟩

theorem State.haltLine_outstations (s : State) (k : Fin 4) :
    (s.haltLine k).tables = s.tables
      ∨ ∃ o, (s.haltLine k).tables = (s.adjustOutstation o fun x => { x with retry := 0 }).tables := by
  have aborted (l : List Downlink) (t : State) : (l.foldl State.replyAborted t).tables = t.tables := by
    induction l generalizing t with
    | nil => rfl
    | cons e l ih => exact ih _
  have dropped (x : Transaction) : (s.dropTransaction x).tables
      = (s.adjustOutstation x.outstation fun x => { x with retry := 0 }).tables := by
    unfold State.dropTransaction
    dsimp only
    split <;> rfl
  unfold State.haltLine
  dsimp only
  split
  · exact .inl rfl
  · split
    · next x _ => exact .inr ⟨x.outstation, (aborted _ _).trans (dropped x)⟩
    · exact .inl (aborted _ _)

theorem State.Canonical.haltLine {s : State} (h : s.Canonical) (k : Fin 4) : (s.haltLine k).Canonical := by
  obtain he | ⟨o, he⟩ := s.haltLine_outstations k
  · exact h.of_tables he
  · exact (h.adjustOutstation o _).of_tables he

theorem State.endStorm_tables (s : State) : s.endStorm.tables = s.tables := by
  unfold State.endStorm
  dsimp only
  split <;> rfl

theorem State.lineTakes_tables (s : State) (k : Fin 4) (o : Nat) (x : Outstation) (ended : Option Transaction) :
    ∃ y, y.config = x.config ∧ (s.lineTakes k o x ended).tables = (s.setOutstations (s.outstations.put o y)).tables := by
  refine ⟨x.heard s.runningSecond ((ended.map fun t => t.kind.carriesFull).getD false), rfl, ?_⟩
  unfold State.lineTakes
  dsimp only
  split <;> split <;> rfl

theorem State.Canonical.storeAsset {s : State} (h : s.Canonical) (a : Nat) (config : AssetConfig) :
    (s.storeAsset a config).Canonical := by
  unfold State.storeAsset
  split
  · exact h.putAsset a _
  · dsimp only
    split
    · exact ((faultOps_refreshOn _ a).canonical (h.putAsset a _)).of_tables rfl
    · exact h.putAsset a _

theorem Move.canonical {s t : State} (ht : Move s t) (h : s.Canonical) : t.Canonical := by
  cases ht with
  | lineSettings k hm hn =>
    exact (h.mapOutstations fun o x => if lineOf o = k.val then x.underSettings (s.line k).settings _ else x).of_tables rfl
  | outstationLoad ho hc hl hm ht => exact h.setOutstations (Table.wf_put h.2.1 _ _)
  | outstationErase o hm =>
    exact (h.setPoints (Table.wf_filter h.2.2.1 _)).setOutstations (Table.wf_del h.2.1 o)
  | resync o => exact h.adjustOutstation o _
  | lineSecond k =>
    unfold State.lineSecond
    split
    · exact h.mapOutstations _
    · exact h
  | countdown k ho hx hn => exact h.adjustOutstation _ _
  | resend k ht hk hr => exact (h.adjustOutstation _ _).of_tables rfl
  | fail k ht hx hp hc hr hh hn => exact h.setOutstations (Table.wf_put h.2.1 _ _)
  | hear k hx ho =>
    obtain ⟨y, -, he⟩ := s.lineTakes_tables k _ _ (s.endedBy k _)
    exact (h.setOutstations (Table.wf_put h.2.1 _ y)).of_tables he
  | putPoint hf => exact h.setPoints (Table.wf_put h.2.2.1 _ _)
  | erasePoint key => exact h.setPoints (Table.wf_del h.2.2.1 key)
  | silence o => exact h.setPoints (Table.wf_mapAll h.2.2.1 _)
  | windows hg => exact h.mapAssets _
  | window hx hg => exact h.putAsset _ _
  | faultProfile p hm hn =>
    refine ⟨?_, h.2.1, h.2.2.1, ?_⟩
    · simp [State.storeFaultProfile, Table.wf_mapAll, h.1]
    · simp [State.storeFaultProfile, Table.wf_mapAll, h.2.2.2]
  | storeAsset ha hc hm hp he hx => exact h.storeAsset _ _
  | eraseAsset hx hm he => exact h.setAssets (Table.wf_del h.1 _)
  | sample hm => exact (faultOps_sample s _).canonical h
  | escalate hm =>
    rw [State.escalateAll, if_pos hm]
    exact h.setRecords (Table.wf_mapAll h.2.2.2 _)
  | unflag id => exact h.adjustRecord id _
  | acknowledge id hc => exact h.adjustRecord id _
  | close hm hr => exact (faultOps_close s _ _).canonical h
  | beginWalk => unfold State.beginWalk; split <;> exact h
  | absorbVisit =>
    obtain ⟨t, w, ht, he⟩ := s.absorbVisit_ops
    exact he ▸ (ht.canonical h).of_tables rfl
  | releaseVisit =>
    obtain ⟨t, w, ht, he⟩ := s.releaseVisit_ops
    exact he ▸ (ht.canonical h).of_tables rfl
  | rebuildVisit hm hb hv => exact ((faultOps_rebuildAt s _).canonical h).of_tables rfl
  | beginEntering owed hm =>
    exact ⟨Table.wf_mapAll (f := fun _ x => x.withGap) h.1, Table.wf_mapAll (f := fun _ x => { x with fullDue := true }) h.2.1,
      h.2.2.1, Table.wf_mapAll (f := fun _ r => State.refreshed _ { r with absorbed := 0 }) h.2.2.2⟩
  | leaveRun hm =>
    have left : (s.setMode .maintain).Canonical := h.of_tables rfl
    exact ((((left.haltLine 0).haltLine 1).haltLine 2).haltLine 3).of_tables (State.endStorm_tables _)
  | restartRuntime =>
    exact ⟨Table.wf_mapAll (f := fun _ x => x.restarted) h.1, Table.wf_mapAll (f := fun _ x => x.restarted) h.2.1,
      Table.wf_mapAll (f := fun _ p => p.silenced) (Table.wf_filter h.2.2.1 _), rfl⟩
  | restartFull => exact State.canonical_empty rfl
  | powerOn => exact State.canonical_empty rfl
  | _ => exact h.of_tables rfl

theorem law_canonical : Law State.Canonical := ⟨Move.canonical, fun _ h => h.of_tables rfl⟩

/-! ## Capacities -/

/-- What is left of the tables' law beside the canonical form. -/
structure State.Capacious (s : State) : Prop where
  points : s.points.length ≤ Config.pointCapacity
  pending : s.pendingPoints ≤ Config.pendingCapacity
  walkList : (s.walkList.map WalkEntry.root).Nodup
  stations : StationsDistinct s.outstations

theorem State.tablesSound_iff (s : State) : s.TablesSound ↔ s.Canonical ∧ s.Capacious :=
  ⟨fun ⟨hc, hl, hp, hw, hd⟩ => ⟨hc, hl, hp, hw, (stationsDistinct_iff hc.2.1).2 hd⟩,
    fun ⟨hc, hl, hp, hw, hd⟩ => ⟨hc, hl, hp, hw, (stationsDistinct_iff hc.2.1).1 hd⟩⟩

theorem State.Capacious.of_eq {s t : State} (h : s.Capacious)
    (ht : (t.outstations, t.points, t.walkList) = (s.outstations, s.points, s.walkList)) : t.Capacious := by
  simp only [Prod.mk.injEq] at ht
  obtain ⟨ho, hp, hw⟩ := ht
  exact ⟨hp ▸ h.points, by simpa only [State.pendingPoints, hp] using h.pending, hw ▸ h.walkList, ho ▸ h.stations⟩

theorem State.Capacious.setOutstations {s : State} (h : s.Capacious) {x : Table Outstation} (hx : StationsDistinct x) :
    (s.setOutstations x).Capacious := ⟨h.points, h.pending, h.walkList, hx⟩

theorem State.Capacious.mapOutstations {s : State} (h : s.Capacious) {f : Nat → Outstation → Outstation}
    (hf : ∀ o x, (f o x).config = x.config) : (s.setOutstations (s.outstations.mapAll f)).Capacious :=
  h.setOutstations (h.stations.mapAll hf)

theorem State.Capacious.adjustOutstation {s : State} (h : s.Capacious) (o : Nat) {f : Outstation → Outstation}
    (hf : ∀ x, (f x).config = x.config) : (s.adjustOutstation o f).Capacious := h.setOutstations (h.stations.adjust o hf)

theorem State.Capacious.setPoints {s : State} (h : s.Capacious) {x : Table Point}
    (hlen : x.length ≤ Config.pointCapacity) (hpend : (s.setPoints x).pendingPoints ≤ Config.pendingCapacity) :
    (s.setPoints x).Capacious := ⟨hlen, hpend, h.walkList, h.stations⟩

theorem State.Capacious.setWalkList {s : State} (h : s.Capacious) {x : List WalkEntry}
    (hx : (x.map WalkEntry.root).Nodup) : (s.setWalkList x).Capacious := ⟨h.points, h.pending, hx, h.stations⟩

/-! ## The walk list (R127) -/

/-- A queue request keeps one entry per root. -/
theorem queueEntry_nodup {l : List WalkEntry} (h : (l.map WalkEntry.root).Nodup) (root : Nat) (kind : WalkKind) :
    ((queueEntry l root kind).map WalkEntry.root).Nodup := by
  unfold queueEntry
  split
  · rw [List.map_map]
    convert h using 2
    funext e
    simp only [Function.comp_apply]
    split <;> rfl
  · next hne =>
    simp only [List.any_eq_true, decide_eq_true_eq, not_exists, not_and] at hne
    rw [List.map_append, List.nodup_append]
    refine ⟨h, List.nodup_singleton _, fun a ha b hb => ?_⟩
    obtain ⟨e, he, rfl⟩ := List.mem_map.1 ha
    rw [List.mem_singleton.1 hb]
    exact hne e he

theorem FaultOp.capacious {s t : State} (ht : FaultOp s t) (h : s.Capacious) : t.Capacious := by
  cases ht with
  | queue ha kind => exact h.setWalkList (queueEntry_nodup h.walkList _ kind)
  | _ => exact h.of_eq rfl

theorem FaultOps.capacious {s t : State} (ht : FaultOps s t) (h : s.Capacious) : t.Capacious :=
  FaultOps.keep (P := State.Capacious) FaultOp.capacious ht h

/-! ## The point map (R45) -/

theorem Table.has_eq_true {α : Type} {t : Table α} {k : Nat} {x : α} (h : t.get? k = some x) : t.has k = true := by
  simp [Table.has, h]

/-- Entries that pass a test are at most one more after a put, and no more when the entry replaced passed or the new one
does not. -/
theorem Table.length_filter_put_le {α : Type} (t : Table α) (k : Nat) (x : α) (p : α → Bool) :
    ((t.put k x).filter fun e => p e.2).length ≤ (t.filter fun e => p e.2).length + (if p x then 1 else 0) := by
  simp only [← List.countP_eq_length_filter]
  induction t with
  | nil => simp [Table.put, List.countP_cons]
  | cons e rest ih =>
    simp only [Table.put]
    split
    · simp only [List.countP_cons]
      omega
    · split
      · simp only [List.countP_cons]
        omega
      · simp only [List.countP_cons]
        omega

theorem Table.length_filter_put_of_get? {α : Type} {t : Table α} (ht : t.wf = true) {k : Nat} {x y : α} {p : α → Bool}
    (hx : t.get? k = some x) (h : p y = true → p x = true) :
    ((t.put k y).filter fun e => p e.2).length ≤ (t.filter fun e => p e.2).length := by
  simp only [← List.countP_eq_length_filter]
  induction t with
  | nil => simp at hx
  | cons e rest ih =>
    rw [Table.wf_iff, List.map_cons, List.pairwise_cons] at ht
    rw [Table.get?_cons] at hx
    simp only [Table.put]
    split
    · next hlt =>
      split at hx
      · omega
      · have := ht.1 k (List.mem_map.2 ⟨_, Table.mem_of_get? hx, rfl⟩)
        omega
    · split
      · next hk =>
        rw [if_pos hk.symm] at hx
        cases hx
        have : (if p y = true then 1 else 0) ≤ if p e.2 = true then 1 else 0 := by
          split
          · next hy => rw [if_pos (h hy)]
          · exact Nat.zero_le _
        simp only [List.countP_cons]
        omega
      · next hk =>
        rw [if_neg (Ne.symm hk)] at hx
        have := ih ((Table.wf_iff rest).2 ht.2) hx
        simp only [List.countP_cons]
        omega

theorem State.pendingPoints_setPoints (s : State) (x : Table Point) :
    (s.setPoints x).pendingPoints = (x.filter fun e => !e.2.resolved).length := rfl

theorem State.Capacious.putPoint {s : State} (h : s.Capacious) (hwf : s.points.wf = true) {key : Nat} {p : Point}
    (hf : s.PointFits key p) : (s.setPoints (s.points.put key p)).Capacious := by
  have hpend := h.pending
  obtain ⟨q, hq, hqp⟩ | ⟨hlen, hroom⟩ := hf.room
  · refine h.setPoints ?_ (le_trans ?_ hpend)
    · rw [Table.length_put_of_has hwf (Table.has_eq_true hq)]
      exact h.points
    · refine Table.length_filter_put_of_get? (p := fun p => !p.resolved) hwf hq fun hp => ?_
      rw [Bool.not_eq_true', ← Bool.not_eq_true] at hp ⊢
      exact fun hr => hp (hqp hr)
  · refine h.setPoints ((Table.length_put_le _ _ _).trans hlen) ?_
    have hle := Table.length_filter_put_le s.points key p (fun p => !p.resolved)
    rw [State.pendingPoints_setPoints]
    unfold State.pendingPoints at hpend hroom
    obtain hres | hroom := hroom
    · simp only [hres, Bool.not_true, Bool.false_eq_true, if_false] at hle
      omega
    · have : (if (!p.resolved) = true then 1 else 0) ≤ 1 := by split <;> omega
      omega

/-- A silenced point keeps its status. -/
theorem Point.silenced_resolved (p : Point) : p.silenced.resolved = p.resolved := by cases p <;> rfl

theorem Table.length_filter_mapAll {α : Type} (t : Table α) (f : Nat → α → α) (p : α → Bool)
    (h : ∀ k x, p (f k x) = p x) :
    ((t.mapAll f).filter fun e => p e.2).length = (t.filter fun e => p e.2).length := by
  simp only [Table.mapAll, List.filter_map, List.length_map]
  congr 2
  funext e
  exact h e.1 e.2

theorem State.Capacious.filterPoints {s : State} (h : s.Capacious) (p : Nat × Point → Bool) :
    (s.setPoints (s.points.filter p)).Capacious :=
  h.setPoints ((List.length_filter_le _ _).trans h.points)
    (((List.filter_sublist.filter _).length_le).trans h.pending)

theorem State.Capacious.mapPoints {s : State} (h : s.Capacious) {f : Nat → Point → Point}
    (hf : ∀ k p, (f k p).resolved = p.resolved) : (s.setPoints (s.points.mapAll f)).Capacious := by
  refine h.setPoints ?_ ?_
  · rw [Table.length_mapAll]
    exact h.points
  · refine le_of_eq_of_le ?_ h.pending
    exact Table.length_filter_mapAll s.points f (fun p => !p.resolved) fun k p => by rw [hf]

/-! ## Moves -/

theorem State.haltLine_walkList (s : State) (k : Fin 4) : (s.haltLine k).walkList = s.walkList := by
  have aborted (l : List Downlink) (t : State) : (l.foldl State.replyAborted t).walkList = t.walkList := by
    induction l generalizing t with
    | nil => rfl
    | cons e l ih => exact ih _
  unfold State.haltLine State.dropTransaction
  dsimp only
  split
  · rfl
  · refine (aborted _ _).trans ?_
    split
    · split <;> rfl
    · rfl

theorem State.Capacious.of_tables {s t : State} (h : s.Capacious) (ht : t.tables = s.tables)
    (hw : t.walkList = s.walkList) : t.Capacious := by
  simp only [State.tables, Prod.mk.injEq] at ht
  obtain ⟨-, ho, hp, -⟩ := ht
  exact h.of_eq (by rw [ho, hp, hw])

theorem State.Capacious.haltLine {s : State} (h : s.Capacious) (k : Fin 4) : (s.haltLine k).Capacious := by
  obtain he | ⟨o, he⟩ := s.haltLine_outstations k
  · exact h.of_tables he (s.haltLine_walkList k)
  · exact (h.adjustOutstation o (f := fun x => { x with retry := 0 }) fun _ => rfl).of_tables he (s.haltLine_walkList k)

theorem State.endStorm_walkList (s : State) : s.endStorm.walkList = s.walkList := by
  unfold State.endStorm
  dsimp only
  split <;> rfl

theorem State.lineTakes_walkList (s : State) (k : Fin 4) (o : Nat) (x : Outstation) (ended : Option Transaction) :
    (s.lineTakes k o x ended).walkList = s.walkList := by
  unfold State.lineTakes
  dsimp only
  split <;> split <;> rfl

theorem outstationAfterLoad_config (old : Option Outstation) (config : OutstationConfig) :
    (outstationAfterLoad old config).config = config := by
  unfold outstationAfterLoad
  dsimp only
  split
  · rfl
  · split <;> rfl

/-- An OUTSTATION LOAD under an address no other station of the line has (R21, step 7). -/
theorem StationsDistinct.load {s : State} (h : StationsDistinct s.outstations) {o : Nat} {y : Outstation}
    (ht : s.addressTaken o y.config.address = false) : StationsDistinct (s.outstations.put o y) := by
  have free (o' : Nat) (x : Outstation) (hx : s.outstations.get? o' = some x) (ho : o' ≠ o) (hl : lineOf o' = lineOf o) :
      x.config.address ≠ y.config.address := by
    intro ha
    have := List.any_eq_false.1 ht _ (Table.mem_of_get? hx)
    simp [ho, hl, ha] at this
  intro p x p' x' hx hx' hl ha
  by_cases hp : p = o <;> by_cases hp' : p' = o
  · rw [hp, hp']
  · subst hp
    rw [Table.get?_put_self] at hx
    rw [Table.get?_put_of_ne _ _ hp'] at hx'
    cases hx
    exact absurd ha.symm (free p' x' hx' hp' hl.symm)
  · subst hp'
    rw [Table.get?_put_self] at hx'
    rw [Table.get?_put_of_ne _ _ hp] at hx
    cases hx'
    exact absurd ha (free p x hx hp hl)
  · rw [Table.get?_put_of_ne _ _ hp] at hx
    rw [Table.get?_put_of_ne _ _ hp'] at hx'
    exact h p x p' x' hx hx' hl ha

theorem StationsDistinct.del {t : Table Outstation} (h : StationsDistinct t) (o : Nat) : StationsDistinct (t.del o) := by
  refine h.of_addresses fun o' y hy => ⟨y, ?_, rfl⟩
  by_cases ho : o' = o
  · subst ho
    simp at hy
  · rwa [Table.get?_del_of_ne _ ho] at hy

theorem Outstation.underSettings_config (old new : LineSettings) (x : Outstation) :
    (x.underSettings old new).config = x.config := by
  unfold Outstation.underSettings
  repeat' split
  all_goals rfl

theorem Outstation.secondTick_config (x : Outstation) (g now : Nat) : (x.secondTick g now).config = x.config := by
  unfold Outstation.secondTick
  split <;> rfl

theorem State.Capacious.lineSettings {s : State} (h : s.Capacious) (k : Fin 4) (new : LineSettings) :
    (s.storeLineSettings k new).Capacious := by
  refine State.Capacious.of_eq (h.mapOutstations (f := fun o x =>
    if lineOf o = k.val then x.underSettings (s.line k).settings new else x) fun o x => ?_) rfl
  split
  · exact x.underSettings_config _ _
  · rfl

theorem State.Capacious.restartRuntime {s : State} (h : s.Capacious) : s.restartRuntime.Capacious := by
  have hpoints := (h.filterPoints fun e => e.2.resolved).mapPoints (f := fun _ p => p.silenced)
    fun _ p => p.silenced_resolved
  exact ⟨hpoints.points, hpoints.pending, List.nodup_nil, h.stations.mapAll (f := fun _ x => x.restarted) fun _ _ => rfl⟩

theorem State.capacious_empty {s : State} (h : (s.outstations, s.points, s.walkList) = ([], [], [])) : s.Capacious := by
  simp only [Prod.mk.injEq] at h
  obtain ⟨ho, hp, hw⟩ := h
  refine ⟨by rw [hp]; exact Nat.zero_le _, by simp [State.pendingPoints, hp], by rw [hw]; exact List.nodup_nil, ?_⟩
  rw [ho]
  rintro o x _ _ ⟨⟩

theorem Move.capacious {s t : State} (ht : Move s t) (hc : s.Canonical) (h : s.Capacious) : t.Capacious := by
  cases ht with
  | lineSettings k hm hn => exact h.lineSettings k _
  | outstationLoad ho hc hl hm ht =>
    exact h.setOutstations (h.stations.load (by rwa [outstationAfterLoad_config]))
  | outstationErase o hm => exact (h.filterPoints _).setOutstations (h.stations.del o)
  | resync o => exact h.adjustOutstation o fun _ => rfl
  | lineSecond k =>
    unfold State.lineSecond
    split
    · refine h.mapOutstations fun o x => ?_
      split
      · exact x.secondTick_config _ _
      · rfl
    · exact h
  | countdown k ho hx hn => exact h.adjustOutstation _ fun _ => rfl
  | resend k ht hk hr =>
    refine (h.adjustOutstation _ ?_).of_eq rfl
    exact fun _ => rfl
  | fail k ht hx hp hy hr hh hn =>
    exact State.Capacious.setOutstations (s := s.setTransaction k none) (h.of_eq rfl) (h.stations.put hx (by rw [hy]))
  | hear k hx ho =>
    obtain ⟨y, hy, he⟩ := s.lineTakes_tables k _ _ (s.endedBy k _)
    exact (h.setOutstations (h.stations.put (Table.get?_of_mem hc.2.1 hx) (by rw [hy]))).of_tables he
      (s.lineTakes_walkList _ _ _ _)
  | putPoint hf => exact h.putPoint hc.2.2.1 hf
  | erasePoint key => exact h.filterPoints _
  | silence o =>
    refine h.mapPoints fun k p => ?_
    split
    · exact p.silenced_resolved
    · rfl
  | storeAsset ha hc hm hp he hx =>
    unfold State.storeAsset
    split
    · exact h.of_eq rfl
    · dsimp only
      split
      · exact ((faultOps_refreshOn (s.putAsset _ (s.reconfigured _ _)) _).capacious (h.of_eq rfl)).of_eq rfl
      · exact h.of_eq rfl
  | sample hm => exact (faultOps_sample s _).capacious h
  | escalate hm =>
    rw [State.escalateAll, if_pos hm]
    exact h.of_eq rfl
  | close hm hr => exact (faultOps_close s _ _).capacious h
  | beginWalk =>
    unfold State.beginWalk
    split
    · next hl =>
      have hn := h.walkList
      rw [hl, List.map_cons] at hn
      exact (h.setWalkList hn.tail).of_eq rfl
    · exact h
  | absorbVisit =>
    obtain ⟨t, w, ht, he⟩ := s.absorbVisit_ops
    exact he ▸ (ht.capacious h).of_eq rfl
  | releaseVisit =>
    obtain ⟨t, w, ht, he⟩ := s.releaseVisit_ops
    exact he ▸ (ht.capacious h).of_eq rfl
  | rebuildVisit hm hb hv => exact ((faultOps_rebuildAt s _).capacious h).of_eq rfl
  | beginEntering owed hm =>
    refine ((h.mapOutstations (f := fun _ x => { x with fullDue := true }) ?_).setWalkList
      (x := []) List.nodup_nil).of_eq rfl
    exact fun _ _ => rfl
  | leaveRun hm =>
    have left : (s.setMode .maintain).Capacious := h.of_eq rfl
    exact ((((left.haltLine 0).haltLine 1).haltLine 2).haltLine 3).of_tables (State.endStorm_tables _)
      (State.endStorm_walkList _)
  | restartRuntime => exact h.restartRuntime
  | restartFull => exact State.capacious_empty rfl
  | powerOn => exact State.capacious_empty rfl
  | _ => exact h.of_eq rfl

/-- Settles O55: every move keeps the canonical form and the capacities, and a step is a run of moves. -/
theorem tablesSoundKept : Obligations.TablesSoundKept := by
  intro s t hs ht
  have law : Law fun s => s.Canonical ∧ s.Capacious := law_canonical.and Move.capacious fun _ h => h.of_eq rfl
  exact t.tablesSound_iff.2 (law.step (s.tablesSound_iff.1 hs) ht)

end Sys2Proof.Machine
end

section
/-! PROOFS. Every step keeps every integrator within the ceiling of its current profile (R70, R7, R10, R67). -/

namespace Sys2Proof.Machine

/-! ## Profiles -/

@[simp] theorem State.faultProfile_setFaultProfiles_self (s : State) (p : Fin 16) (new : FaultProfile) :
    (s.setFaultProfiles (s.faultProfiles.set p.val new p.isLt)).faultProfile p = new := by
  change (s.faultProfiles.set p.val _ p.isLt)[p.val] = _
  rw [Vector.getElem_set_self]

theorem State.faultProfile_setFaultProfiles_of_ne (s : State) {p q : Fin 16} (h : q ≠ p) (new : FaultProfile) :
    (s.setFaultProfiles (s.faultProfiles.set p.val new p.isLt)).faultProfile q = s.faultProfile q := by
  have : p.val ≠ q.val := fun e => h (Fin.ext e.symm)
  change (s.faultProfiles.set p.val _ p.isLt)[q.val] = _
  rw [Vector.getElem_set_ne _ _ this]
  rfl

theorem FaultOp.faultProfiles {s t : State} (h : FaultOp s t) : t.faultProfiles = s.faultProfiles := by
  cases h <;> rfl

/-! ## Assets -/

/-- An asset's integrator lies within the ceiling of the profile it names. -/
def State.Bounded (s : State) (x : Asset) : Prop := x.integrator ≤ (s.faultProfile x.config.faultProfile).ceiling

theorem State.IntegratorsBounded.of_assets {s t : State} (hp : t.faultProfiles = s.faultProfiles)
    (h : ∀ e ∈ t.assets, s.Bounded e.2) : t.IntegratorsBounded := by
  intro e he
  have := h e he
  simpa only [State.Bounded, State.faultProfile, hp] using this

theorem State.IntegratorsBounded.of_eq {s t : State} (h : s.IntegratorsBounded)
    (ht : (t.assets, t.faultProfiles) = (s.assets, s.faultProfiles)) : t.IntegratorsBounded := by
  simp only [Prod.mk.injEq] at ht
  exact .of_assets ht.2 fun e he => h e (ht.1 ▸ he)

/-- Integrators may fall. -/
theorem State.Bounded.of_le {s : State} {x y : Asset} (h : s.Bounded x) (hc : y.config = x.config)
    (hi : y.integrator ≤ x.integrator) : s.Bounded y := by
  unfold State.Bounded at *
  rw [hc]
  exact hi.trans h

theorem State.IntegratorsBounded.mapAssets {s : State} (h : s.IntegratorsBounded) {f : Nat → Asset → Asset}
    (hc : ∀ a x, (f a x).config = x.config) (hi : ∀ a x, (f a x).integrator ≤ x.integrator) :
    (s.setAssets (s.assets.mapAll f)).IntegratorsBounded := by
  refine .of_assets rfl fun e he => ?_
  obtain ⟨e', he', rfl⟩ := List.mem_map.1 he
  exact State.Bounded.of_le (h e' he') (hc _ _) (hi _ _)

theorem State.IntegratorsBounded.putAsset {s : State} (h : s.IntegratorsBounded) (a : Nat) {x : Asset} (hx : s.Bounded x) :
    (s.putAsset a x).IntegratorsBounded := by
  refine .of_assets rfl fun e he => ?_
  obtain rfl | he := Table.mem_put he
  · exact hx
  · exact h e he

/-- A step of the integrator stays within the ceiling (R70). -/
theorem integratorStep_le {p : FaultProfile} {i : Nat} (h : i ≤ p.ceiling) (w : Condition) :
    integratorStep p w i ≤ p.ceiling := by
  cases w with
  | fail => exact Nat.min_le_left _ _
  | degraded => exact Nat.min_le_left _ _
  | ok => exact (Nat.sub_le _ _).trans h
  | unknown => exact h

theorem FaultOp.integratorsBounded {s t : State} (ht : FaultOp s t) (h : s.IntegratorsBounded) : t.IntegratorsBounded := by
  cases ht with
  | mark a hf =>
    rw [State.adjustAsset, Table.adjust_eq_mapAll]
    refine h.mapAssets (fun b x => ?_) fun b x => ?_
    · split
      · exact (hf x).config
      · rfl
    · split
      · exact (hf x).integrator
      · exact le_refl _
  | sampled hx w => exact h.putAsset _ (integratorStep_le (h _ (Table.mem_of_get? hx)) w)
  | _ => exact h.of_eq rfl

theorem FaultOps.integratorsBounded {s t : State} (ht : FaultOps s t) (h : s.IntegratorsBounded) : t.IntegratorsBounded :=
  FaultOps.keep (P := State.IntegratorsBounded) FaultOp.integratorsBounded ht h

/-! ## Moves -/

theorem State.IntegratorsBounded.reconfigured {s : State} {x : Asset} (hx : s.Bounded x) (config : AssetConfig) :
    s.Bounded (s.reconfigured x config) := by
  unfold State.Bounded State.reconfigured
  dsimp only
  split
  · exact Nat.min_le_right _ _
  · next h => rw [← not_not.1 (not_or.1 h).2]; exact hx

theorem State.IntegratorsBounded.storeAsset {s : State} (h : s.IntegratorsBounded) (a : Nat) (config : AssetConfig) :
    (s.storeAsset a config).IntegratorsBounded := by
  unfold State.storeAsset
  split
  · exact h.putAsset a (Nat.zero_le _)
  · next x hx =>
    have replaced := h.putAsset a (IntegratorsBounded.reconfigured (h _ (Table.mem_of_get? hx)) config)
    dsimp only
    split
    · exact ((faultOps_refreshOn _ a).integratorsBounded replaced).of_eq rfl
    · exact replaced

theorem State.IntegratorsBounded.storeFaultProfile {s : State} (h : s.IntegratorsBounded) (p : Fin 16)
    (new : FaultProfile) : (s.storeFaultProfile p new).IntegratorsBounded := by
  refine State.IntegratorsBounded.of_assets (s := s.setFaultProfiles (s.faultProfiles.set p.val new p.isLt)) rfl
    fun e he => ?_
  obtain ⟨e', he', rfl⟩ := List.mem_map.1 he
  have hb := h e' he'
  unfold State.Bounded
  dsimp only
  split
  · next hp =>
    dsimp only
    rw [hp, State.faultProfile_setFaultProfiles_self]
    exact Nat.min_le_right _ _
  · next hp => rwa [State.faultProfile_setFaultProfiles_of_ne _ hp]

theorem State.haltLine_assets (s : State) (k : Fin 4) :
    ((s.haltLine k).assets, (s.haltLine k).faultProfiles) = (s.assets, s.faultProfiles) := by
  have aborted (l : List Downlink) (t : State) : ((l.foldl State.replyAborted t).assets,
      (l.foldl State.replyAborted t).faultProfiles) = (t.assets, t.faultProfiles) := by
    induction l generalizing t with
    | nil => rfl
    | cons e l ih => exact ih _
  unfold State.haltLine State.dropTransaction
  dsimp only
  split
  · rfl
  · refine (aborted _ _).trans ?_
    split
    · split <;> rfl
    · rfl

theorem State.endStorm_assets (s : State) :
    (s.endStorm.assets, s.endStorm.faultProfiles) = (s.assets, s.faultProfiles) := by
  unfold State.endStorm
  dsimp only
  split <;> rfl

theorem State.lineTakes_assets (s : State) (k : Fin 4) (o : Nat) (x : Outstation) (ended : Option Transaction) :
    ((s.lineTakes k o x ended).assets, (s.lineTakes k o x ended).faultProfiles) = (s.assets, s.faultProfiles) := by
  unfold State.lineTakes
  dsimp only
  split <;> split <;> rfl

theorem State.integratorsBounded_of_nil {s : State} (h : s.assets = []) : s.IntegratorsBounded := by
  intro e he
  rw [h] at he
  cases he

theorem Move.integratorsBounded {s t : State} (ht : Move s t) (h : s.IntegratorsBounded) : t.IntegratorsBounded := by
  cases ht with
  | lineSecond k => unfold State.lineSecond; split <;> exact h.of_eq rfl
  | hear k hx ho => exact h.of_eq (s.lineTakes_assets _ _ _ _)
  | windows hg => exact h.mapAssets (fun _ _ => rfl) fun _ _ => le_refl _
  | window hx hg => exact h.putAsset _ (h _ (Table.mem_of_get? hx))
  | faultProfile p hm hn => exact h.storeFaultProfile p _
  | storeAsset ha hc hm hp he hx => exact h.storeAsset _ _
  | eraseAsset hx hm he => exact .of_assets rfl fun e he => h e (List.mem_filter.1 he).1
  | sample hm => exact (faultOps_sample s _).integratorsBounded h
  | escalate hm => rw [State.escalateAll, if_pos hm]; exact h.of_eq rfl
  | close hm hr => exact (faultOps_close s _ _).integratorsBounded h
  | beginWalk => unfold State.beginWalk; split <;> exact h.of_eq rfl
  | absorbVisit =>
    obtain ⟨t, w, ht, he⟩ := s.absorbVisit_ops
    exact he ▸ (ht.integratorsBounded h).of_eq rfl
  | releaseVisit =>
    obtain ⟨t, w, ht, he⟩ := s.releaseVisit_ops
    exact he ▸ (ht.integratorsBounded h).of_eq rfl
  | rebuildVisit hm hb hv => exact ((faultOps_rebuildAt s _).integratorsBounded h).of_eq rfl
  | beginEntering owed hm =>
    refine (h.mapAssets (f := fun _ x => x.withGap) ?_ ?_).of_eq rfl
    · exact fun _ _ => rfl
    · exact fun _ _ => le_refl _
  | leaveRun hm =>
    refine h.of_eq ((State.endStorm_assets _).trans ?_)
    simp only [State.haltLine_assets]
    rfl
  | restartRuntime =>
    refine (h.mapAssets (f := fun _ x => x.restarted) ?_ ?_).of_eq rfl
    · exact fun _ _ => rfl
    · exact fun _ _ => Nat.zero_le _
  | restartFull => exact State.integratorsBounded_of_nil rfl
  | powerOn => exact State.integratorsBounded_of_nil rfl
  | _ => exact h.of_eq rfl

/-- Settles O57: every move keeps the integrators bounded, and a step is a run of moves. -/
theorem integratorsBoundedKept : Obligations.IntegratorsBoundedKept := by
  intro s t _ hs ht
  have law : Law State.IntegratorsBounded := ⟨Move.integratorsBounded, fun _ h => h.of_eq rfl⟩
  exact law.step hs ht

end Sys2Proof.Machine
end

section
/-! PROOFS. The parent forest (R4 to R6, R16): the relation of descendant and ancestor, read from parents alone; chains of
ancestors under the tree's law; and which moves leave the forest as it is. -/

namespace Sys2Proof.Machine

/-! ## The tables as maps -/

theorem Table.get?_eq_some_iff {α : Type} {t : Table α} (h : t.wf = true) {k : Nat} {x : α} :
    t.get? k = some x ↔ (k, x) ∈ t := ⟨Table.mem_of_get?, Table.get?_of_mem h⟩

theorem Table.mem_keysWhere {α : Type} {t : Table α} (h : t.wf = true) {p : Nat → α → Bool} {k : Nat} :
    k ∈ t.keysWhere p ↔ ∃ x, t.get? k = some x ∧ p k x = true := by
  simp only [Table.keysWhere, List.mem_map, List.mem_filter, Prod.exists, exists_and_right, exists_eq_right,
    Table.get?_eq_some_iff h]

theorem Table.has_iff_mem_keys {α : Type} {t : Table α} (h : t.wf = true) {k : Nat} :
    t.get? k ≠ none ↔ k ∈ t.map Prod.fst := by
  simp [Option.ne_none_iff_exists', Table.get?_eq_some_iff h]

/-- What is read of the entries is left by a put of an entry that agrees in it with the one it replaces. -/
theorem Table.map_put_of_get? {α β : Type} {t : Table α} (h : t.wf = true) {k : Nat} {x y : α} (hx : t.get? k = some x)
    {g : α → β} (hg : g y = g x) :
    (t.put k y).map (fun e => (e.1, g e.2)) = t.map fun e => (e.1, g e.2) := by
  induction t with
  | nil => simp at hx
  | cons e rest ih =>
    rw [Table.wf_iff, List.map_cons, List.pairwise_cons] at h
    rw [Table.get?_cons] at hx
    simp only [Table.put]
    split
    · next hlt =>
      split at hx
      · omega
      · have := h.1 k (List.mem_map.2 ⟨_, Table.mem_of_get? hx, rfl⟩)
        omega
    · split
      · next hk =>
        rw [if_pos hk.symm] at hx
        cases hx
        simp [hg, hk]
      · next hk =>
        rw [if_neg (Ne.symm hk)] at hx
        simp [ih ((Table.wf_iff rest).2 h.2) hx]

/-! ## Parents and children -/

theorem State.mem_childrenOf {s : State} (h : s.assets.wf = true) {a c : Nat} :
    c ∈ s.childrenOf a ↔ s.parentOf c = some a := by
  simp [State.childrenOf, Table.mem_keysWhere h, State.parentOf, State.asset?, Option.bind_eq_some_iff]

theorem State.mem_roots {s : State} (h : s.assets.wf = true) {a : Nat} :
    a ∈ s.roots ↔ s.asset? a ≠ none ∧ s.parentOf a = none := by
  simp only [State.roots, Table.mem_keysWhere h, State.parentOf, State.asset?, decide_eq_true_eq]
  constructor
  · rintro ⟨x, hx, hp⟩
    simp [hx, hp]
  · rintro ⟨hx, hp⟩
    obtain ⟨x, hx⟩ := Option.ne_none_iff_exists'.1 hx
    exact ⟨x, hx, by simpa [hx] using hp⟩

theorem State.hasChild_iff {s : State} (h : s.assets.wf = true) {a : Nat} :
    s.hasChild a = true ↔ ∃ c, s.parentOf c = some a := by
  simp [State.hasChild, List.eq_nil_iff_forall_not_mem, State.mem_childrenOf h]

/-- The asset so many levels above another. -/
def State.up (s : State) : Nat → Nat → Option Nat
  | 0, d => some d
  | n + 1, d => (s.parentOf d).bind (s.up n)

theorem State.up_succ (s : State) (n d : Nat) : s.up (n + 1) d = (s.up n d).bind s.parentOf := by
  induction n generalizing d with
  | zero => cases h : s.parentOf d <;> simp [State.up, h]
  | succ n ih =>
    rw [State.up]
    cases h : s.parentOf d with
    | none => simp [State.up, h]
    | some p => simpa [State.up, h] using ih p

theorem State.up_add (s : State) (m n d : Nat) : s.up (m + n) d = (s.up m d).bind (s.up n) := by
  induction m generalizing d with
  | zero => simp [State.up]
  | succ m ih =>
    rw [Nat.succ_add, State.up, State.up]
    cases s.parentOf d with
    | none => rfl
    | some p => exact ih p

theorem mem_ancestorsUpTo {s : State} {f a d : Nat} :
    a ∈ ancestorsUpTo s f d ↔ ∃ n, 1 ≤ n ∧ n ≤ f ∧ s.up n d = some a := by
  induction f generalizing d with
  | zero =>
    simp only [ancestorsUpTo, List.not_mem_nil, false_iff, not_exists]
    omega
  | succ f ih =>
    unfold ancestorsUpTo
    cases hp : s.parentOf d with
    | none =>
      simp only [List.not_mem_nil, false_iff, not_exists, not_and]
      rintro (_ | n) h1 - h
      · omega
      · simp [State.up, hp] at h
    | some p =>
      simp only [List.mem_cons, ih]
      constructor
      · rintro (rfl | ⟨n, h1, h2, h3⟩)
        · exact ⟨1, le_refl _, by omega, by simp [State.up, hp]⟩
        · exact ⟨n + 1, by omega, by omega, by simpa [State.up, hp] using h3⟩
      · rintro ⟨_ | _ | n, h1, h2, h3⟩
        · omega
        · left; simpa [State.up, hp, eq_comm] using h3
        · right; exact ⟨n + 1, by omega, by omega, by rwa [State.up, hp] at h3⟩

theorem mem_descendantsUpTo {s : State} (h : s.assets.wf = true) {f a d : Nat} :
    d ∈ descendantsUpTo s f a ↔ ∃ n, 1 ≤ n ∧ n ≤ f ∧ s.up n d = some a := by
  induction f generalizing a with
  | zero =>
    simp only [descendantsUpTo, List.not_mem_nil, false_iff, not_exists]
    omega
  | succ f ih =>
    simp only [descendantsUpTo, List.mem_flatMap, List.mem_cons, State.mem_childrenOf h, ih]
    constructor
    · rintro ⟨c, hc, rfl | ⟨n, h1, h2, h3⟩⟩
      · exact ⟨1, le_refl _, by omega, by simp [State.up, hc]⟩
      · exact ⟨n + 1, by omega, by omega, by simp [State.up_succ, h3, hc]⟩
    · rintro ⟨_ | _ | n, h1, h2, h3⟩
      · omega
      · exact ⟨d, by simpa [State.up] using h3, .inl rfl⟩
      · rw [State.up_succ, Option.bind_eq_some_iff] at h3
        obtain ⟨c, hc, hca⟩ := h3
        exact ⟨c, hca, .inr ⟨n + 1, by omega, by omega, hc⟩⟩

/-- Descendants are those of whom the asset is an ancestor. -/
theorem State.mem_descendantsOf {s : State} (h : s.assets.wf = true) {a d : Nat} :
    d ∈ s.descendantsOf a ↔ a ∈ s.ancestorsOf d := by
  rw [State.descendantsOf, State.ancestorsOf, mem_descendantsUpTo h, mem_ancestorsUpTo]

/-- The levels above an asset number as many as its ancestors. -/
theorem length_ancestorsUpTo_lt_iff {s : State} {f d n : Nat} (hn : n < f) :
    (ancestorsUpTo s f d).length ≤ n ↔ s.up (n + 1) d = none := by
  induction f generalizing d n with
  | zero => omega
  | succ f ih =>
    unfold ancestorsUpTo
    cases hp : s.parentOf d with
    | none => simp [State.up, hp]
    | some p =>
      cases n with
      | zero => simp [State.up, hp]
      | succ n =>
        rw [List.length_cons, Nat.succ_le_succ_iff, ih (by omega)]
        simp [State.up, hp]

/-! ## The tree's law -/

theorem State.depthOf_le_iff (s : State) (d : Nat) : s.depthOf d ≤ Config.maxDepth ↔ s.up 6 d = none := by
  rw [State.depthOf, State.ancestorsOf, ← length_ancestorsUpTo_lt_iff (f := Config.maxDepth) (n := 5) (by decide)]
  exact Nat.succ_le_succ_iff

theorem State.treeLaw_iff {s : State} (h : s.assets.wf = true) :
    s.TreeLaw ↔ ∀ d p, s.parentOf d = some p → s.asset? p ≠ none ∧ s.up 6 d = none := by
  constructor
  · intro ht d p hp
    obtain ⟨x, hx, hxp⟩ := Option.bind_eq_some_iff.1 hp
    obtain ⟨h1, h2⟩ := ht (d, x) (Table.mem_of_get? hx)
    exact ⟨Option.isSome_iff_ne_none.1 (h1 p hxp), (s.depthOf_le_iff d).1 h2⟩
  · intro ht e he
    have hx : s.asset? e.1 = some e.2 := Table.get?_of_mem h he
    constructor
    · intro p hp
      exact Option.isSome_iff_ne_none.2 (ht e.1 p (by simpa [State.parentOf, hx] using hp)).1
    · rw [State.depthOf_le_iff]
      cases hp : s.parentOf e.1 with
      | none => simp [State.up, hp]
      | some p => exact (ht e.1 p hp).2

/-- The forest of a state: canonical assets under the tree's law. -/
structure State.Forest (s : State) : Prop where
  wf : s.assets.wf = true
  present : ∀ {d p}, s.parentOf d = some p → s.asset? p ≠ none
  shallow : ∀ d, s.up 6 d = none

theorem State.TreeLaw.forest {s : State} (h : s.TreeLaw) (hw : s.assets.wf = true) : s.Forest where
  wf := hw
  present hp := ((State.treeLaw_iff hw).1 h _ _ hp).1
  shallow d := by
    cases hp : s.parentOf d with
    | none => simp [State.up, hp]
    | some p => exact ((State.treeLaw_iff hw).1 h d p hp).2

theorem State.Forest.treeLaw {s : State} (h : s.Forest) : s.TreeLaw :=
  (State.treeLaw_iff h.wf).2 fun d _ hp => ⟨h.present hp, h.shallow d⟩

section
variable {s : State}

theorem State.up_none_of_le {m n d : Nat} (h : s.up m d = none) (hmn : m ≤ n) : s.up n d = none := by
  obtain ⟨k, rfl⟩ := Nat.exists_eq_add_of_le hmn
  rw [State.up_add, h]
  rfl

/-- Being an ancestor, the number of levels left out. -/
theorem State.Forest.mem_ancestorsOf (h : s.Forest) {a d : Nat} :
    a ∈ s.ancestorsOf d ↔ ∃ n, 1 ≤ n ∧ s.up n d = some a := by
  rw [State.ancestorsOf, mem_ancestorsUpTo]
  constructor
  · rintro ⟨n, h1, -, h3⟩
    exact ⟨n, h1, h3⟩
  · rintro ⟨n, h1, h3⟩
    refine ⟨n, h1, ?_, h3⟩
    by_contra hn
    rw [State.up_none_of_le (h.shallow d) (by unfold Config.maxDepth at hn; omega)] at h3
    cases h3

theorem State.Forest.ancestorsOf_eq (h : s.Forest) (d : Nat) :
    s.ancestorsOf d = match s.parentOf d with
      | none => []
      | some p => p :: s.ancestorsOf p := by
  have longer (f a : Nat) (ha : s.up f a = none) : ancestorsUpTo s (f + 1) a = ancestorsUpTo s f a := by
    induction f generalizing a with
    | zero => simp [State.up] at ha
    | succ f ih =>
      rw [ancestorsUpTo, ancestorsUpTo]
      cases hp : s.parentOf a with
      | none => rfl
      | some p =>
        rw [State.up, hp] at ha
        exact congrArg (p :: ·) (ih p ha)
  cases hp : s.parentOf d with
  | none => simp [State.ancestorsOf, ancestorsUpTo, hp]
  | some p =>
    have h5 : s.up 5 p = none := by
      have := h.shallow d
      rwa [State.up, hp] at this
    simp only [State.ancestorsOf]
    rw [show Config.maxDepth = 5 + 1 from rfl, longer 5 p h5]
    simp [ancestorsUpTo, hp]

theorem State.Forest.parent_mem (h : s.Forest) {d p : Nat} (hp : s.parentOf d = some p) : p ∈ s.ancestorsOf d := by
  rw [h.ancestorsOf_eq, hp]
  exact List.mem_cons_self

theorem State.Forest.mem_ancestorsOf_parent (h : s.Forest) {d p a : Nat} (hp : s.parentOf d = some p) :
    a ∈ s.ancestorsOf d ↔ a = p ∨ a ∈ s.ancestorsOf p := by
  rw [h.ancestorsOf_eq d, hp]
  exact List.mem_cons

theorem State.Forest.trans (h : s.Forest) {a b d : Nat} (hab : a ∈ s.ancestorsOf b) (hbd : b ∈ s.ancestorsOf d) :
    a ∈ s.ancestorsOf d := by
  rw [h.mem_ancestorsOf] at *
  obtain ⟨m, hm1, hm⟩ := hbd
  obtain ⟨n, hn1, hn⟩ := hab
  exact ⟨m + n, by omega, by rw [State.up_add, hm]; exact hn⟩

/-- No asset is its own ancestor (R5). -/
theorem State.Forest.irrefl (h : s.Forest) (a : Nat) : a ∉ s.ancestorsOf a := by
  rw [h.mem_ancestorsOf]
  rintro ⟨n, hn, ha⟩
  have again (k : Nat) : s.up (n * k) a = some a := by
    induction k with
    | zero => rfl
    | succ k ih => rw [Nat.mul_succ, State.up_add, ih]; exact ha
  have := State.up_none_of_le (h.shallow a) (Nat.le_mul_of_pos_left 6 (by omega : 0 < n))
  rw [again] at this
  cases this

/-- The ancestors of one asset lie on one chain. -/
theorem State.Forest.chain (h : s.Forest) {a b d : Nat} (ha : a ∈ s.ancestorsOf d) (hb : b ∈ s.ancestorsOf d) :
    a = b ∨ a ∈ s.ancestorsOf b ∨ b ∈ s.ancestorsOf a := by
  have above {m n a b : Nat} (hm : s.up m d = some a) (hn : s.up n d = some b) (hlt : m < n) : b ∈ s.ancestorsOf a := by
    obtain ⟨k, rfl⟩ := Nat.exists_eq_add_of_lt hlt
    rw [h.mem_ancestorsOf]
    rw [Nat.add_assoc, State.up_add, hm] at hn
    exact ⟨k + 1, by omega, hn⟩
  obtain ⟨m, -, hm⟩ := h.mem_ancestorsOf.1 ha
  obtain ⟨n, -, hn⟩ := h.mem_ancestorsOf.1 hb
  rcases Nat.lt_trichotomy m n with hlt | rfl | hlt
  · exact .inr (.inr (above hm hn hlt))
  · exact .inl (Option.some.inj (hm.symm.trans hn))
  · exact .inr (.inl (above hn hm hlt))

theorem State.Forest.ancestor_present (h : s.Forest) {a d : Nat} (ha : a ∈ s.ancestorsOf d) : s.asset? a ≠ none := by
  obtain ⟨n, hn, hup⟩ := h.mem_ancestorsOf.1 ha
  obtain ⟨k, rfl⟩ := Nat.exists_eq_add_of_le hn
  rw [Nat.add_comm, State.up_succ, Option.bind_eq_some_iff] at hup
  obtain ⟨c, -, hc⟩ := hup
  exact h.present hc

/-- What has an ancestor is present. -/
theorem State.asset?_ne_none_of_ancestor {a d : Nat} (ha : a ∈ s.ancestorsOf d) : s.asset? d ≠ none := by
  intro hd
  have hp : s.parentOf d = none := by simp [State.parentOf, hd]
  simp [State.ancestorsOf, ancestorsUpTo, hp] at ha

theorem State.Forest.mem_descendantsOf (h : s.Forest) {a d : Nat} : d ∈ s.descendantsOf a ↔ a ∈ s.ancestorsOf d :=
  State.mem_descendantsOf h.wf

end

/-! ## The tree of a state -/

/-- The parents of the present assets: all that the tree is read from. -/
def State.tree (s : State) : Table (Option Nat) := s.assets.map fun e => (e.1, e.2.config.parent)

theorem Table.get?_map {α β : Type} (t : Table α) (g : α → β) (k : Nat) :
    Table.get? (t.map fun e => (e.1, g e.2)) k = (t.get? k).map g := by
  induction t with
  | nil => rfl
  | cons e t ih =>
    rw [List.map_cons, Table.get?_cons, Table.get?_cons, ih]
    split <;> rfl

theorem Table.map_put {α β : Type} (t : Table α) (g : α → β) (k : Nat) (y : α) :
    (t.put k y).map (fun e => (e.1, g e.2)) = Table.put (t.map fun e => (e.1, g e.2)) k (g y) := by
  induction t with
  | nil => rfl
  | cons e t ih =>
    simp only [Table.put, List.map_cons]
    split
    · rfl
    · split
      · rfl
      · rw [List.map_cons, ih]

theorem State.parentOf_eq (s : State) (d : Nat) : s.parentOf d = (s.tree.get? d).join := by
  rw [State.tree, Table.get?_map s.assets fun x => x.config.parent, State.parentOf, State.asset?]
  cases s.assets.get? d <;> rfl

theorem State.asset?_ne_none_iff (s : State) (d : Nat) : s.asset? d ≠ none ↔ s.tree.get? d ≠ none := by
  rw [State.tree, Table.get?_map s.assets fun x => x.config.parent, State.asset?]
  cases s.assets.get? d <;> simp

theorem State.childrenOf_eq (s : State) (a : Nat) : s.childrenOf a = s.tree.keysWhere fun _ p => p = some a := by
  simp only [State.childrenOf, State.tree, Table.keysWhere, List.filter_map, List.map_map]
  rfl

theorem State.roots_eq (s : State) : s.roots = s.tree.keysWhere fun _ p => p = none := by
  simp only [State.roots, State.tree, Table.keysWhere, List.filter_map, List.map_map]
  rfl

section
variable {s t : State} (h : t.tree = s.tree)
include h

theorem State.parentOf_of_tree (d : Nat) : t.parentOf d = s.parentOf d := by rw [State.parentOf_eq, h, ← State.parentOf_eq]

theorem State.present_of_tree (d : Nat) : t.asset? d ≠ none ↔ s.asset? d ≠ none := by
  rw [State.asset?_ne_none_iff, h, ← State.asset?_ne_none_iff]

theorem State.childrenOf_of_tree (a : Nat) : t.childrenOf a = s.childrenOf a := by
  rw [State.childrenOf_eq, h, ← State.childrenOf_eq]

theorem State.hasChild_of_tree (a : Nat) : t.hasChild a = s.hasChild a := by
  rw [State.hasChild, State.childrenOf_of_tree h, State.hasChild]

theorem State.up_of_tree (n d : Nat) : t.up n d = s.up n d := by
  induction n generalizing d with
  | zero => rfl
  | succ n ih => simp only [State.up, State.parentOf_of_tree h, funext ih]

theorem State.ancestorsOf_of_tree (d : Nat) : t.ancestorsOf d = s.ancestorsOf d := by
  have same (f d : Nat) : ancestorsUpTo t f d = ancestorsUpTo s f d := by
    induction f generalizing d with
    | zero => rfl
    | succ f ih => simp only [ancestorsUpTo, State.parentOf_of_tree h, ih]
  exact same _ d

theorem State.descendantsOf_of_tree (a : Nat) : t.descendantsOf a = s.descendantsOf a := by
  have same (f a : Nat) : descendantsUpTo t f a = descendantsUpTo s f a := by
    induction f generalizing a with
    | zero => rfl
    | succ f ih => simp only [descendantsUpTo, State.childrenOf_of_tree h, ih]
  exact same _ a

theorem State.forest_of_tree : t.forest = s.forest := by
  simp only [State.forest, State.roots_eq, h, State.descendantsOf_of_tree h]

theorem State.Forest.of_tree (hs : s.Forest) : t.Forest where
  wf := by
    have keys (u : State) : u.tree.map Prod.fst = u.assets.map Prod.fst := by simp [State.tree]
    rw [Table.wf_iff, ← keys, h, keys, ← Table.wf_iff]
    exact hs.wf
  present hp := (State.present_of_tree h _).2 (hs.present (State.parentOf_of_tree h _ ▸ hp))
  shallow d := by rw [State.up_of_tree h, hs.shallow]

end

theorem State.Forest.setPending {s : State} (hs : s.Forest) (q : List Instr) : (s.setPending q).Forest :=
  State.Forest.of_tree (s := s) rfl hs

/-! ## Which moves leave the tree as it is -/

theorem State.tree_of_assets {s t : State} (h : t.assets = s.assets) : t.tree = s.tree := by rw [State.tree, h, State.tree]

theorem State.tree_of_nil {s : State} (h : s.assets = []) : s.tree = [] := by rw [State.tree, h]; rfl

theorem State.tree_of_mapAll {s t : State} (f : Nat → Asset → Asset) (h : t.assets = s.assets.mapAll f)
    (hf : ∀ a x, (f a x).config = x.config) : t.tree = s.tree := by
  simp [State.tree, h, Table.mapAll, hf]

theorem State.tree_adjustAsset (s : State) (a : Nat) {f : Asset → Asset} (hf : ∀ x, (f x).config = x.config) :
    (s.adjustAsset a f).tree = s.tree := by
  rw [State.adjustAsset, Table.adjust_eq_mapAll]
  refine State.tree_of_mapAll (fun b x => if b = a then f x else x) rfl fun b x => ?_
  split
  · exact hf x
  · rfl

theorem State.tree_putAsset (s : State) (a : Nat) (y : Asset) :
    (s.putAsset a y).tree = s.tree.put a y.config.parent := Table.map_put s.assets (fun x => x.config.parent) a y

theorem State.tree_putAsset_of_asset? {s : State} (h : s.assets.wf = true) {a : Nat} {x y : Asset} (hx : s.asset? a = some x)
    (hy : y.config = x.config) : (s.putAsset a y).tree = s.tree :=
  Table.map_put_of_get? (g := fun x => x.config.parent) h hx (by rw [hy])

theorem FaultOp.tree {s t : State} (ht : FaultOp s t) (h : s.assets.wf = true) : t.tree = s.tree := by
  cases ht with
  | mark a hf => exact s.tree_adjustAsset a fun x => (hf x).config
  | sampled hx w => exact State.tree_putAsset_of_asset? h hx rfl
  | _ => rfl

theorem FaultOps.tree {s t : State} (ht : FaultOps s t) (h : s.Canonical) : t.tree = s.tree :=
  (FaultOps.keep (P := fun u => u.Canonical ∧ u.tree = s.tree)
    (fun hop hu => ⟨hop.canonical hu.1, (hop.tree hu.1.1).trans hu.2⟩) ht ⟨h, rfl⟩).2

theorem State.tree_storeAsset {s : State} (h : s.Canonical) (a : Nat) (config : AssetConfig) :
    (s.storeAsset a config).tree = s.tree.put a config.parent := by
  unfold State.storeAsset
  split
  · exact s.tree_putAsset a _
  · dsimp only
    split
    · exact (((faultOps_refreshOn _ a).tree (h.putAsset a _)).trans (s.tree_putAsset a _))
    · exact s.tree_putAsset a _

/-- What a move does to the tree: an ASSET LOAD or ERASE changes one parent, a restart from scratch empties it, and every
other move leaves it. -/
theorem Move.tree {s t : State} (ht : Move s t) (h : s.Canonical) :
    t.tree = s.tree
      ∨ (∃ a, ∃ config : AssetConfig, s.mode ≠ .entering ∧ s.parentPresent config.parent = true
          ∧ s.parentConflict a (s.asset? a) config.parent = false ∧ t.tree = s.tree.put a config.parent)
      ∨ (∃ a, s.mode ≠ .entering ∧ s.hasChild a = false ∧ t.tree = s.tree.del a)
      ∨ t.tree = [] := by
  cases ht with
  | storeAsset ha hc hm hp he hx => exact .inr (.inl ⟨_, _, hm, hp, hx, State.tree_storeAsset h _ _⟩)
  | @eraseAsset a x hx hm he =>
    refine .inr (.inr (.inl ⟨a, hm, ?_, ?_⟩))
    · simp only [State.eraseConflict, Bool.or_eq_false_iff] at he
      obtain ⟨⟨⟨⟨⟨⟨hchild, -⟩, -⟩, -⟩, -⟩, -⟩, -⟩ := he
      exact hchild
    · simp only [State.tree, State.setAssets_assets, Table.del, List.filter_map]
      rfl
  | restartFull => exact .inr (.inr (.inr (State.tree_of_nil rfl)))
  | powerOn => exact .inr (.inr (.inr (State.tree_of_nil rfl)))
  | lineSecond k => unfold State.lineSecond; split <;> exact .inl rfl
  | hear k hx ho => exact .inl (State.tree_of_assets (Prod.mk.inj (s.lineTakes_assets _ _ _ _)).1)
  | @windows g hg =>
    exact .inl (State.tree_of_mapAll (fun a x => { x with window := x.window.map (g a x) }) rfl fun _ _ => rfl)
  | window hx hg => exact .inl (State.tree_putAsset_of_asset? h.1 hx rfl)
  | @faultProfile p new hm hn =>
    refine .inl (State.tree_of_mapAll
      (fun _ x => if x.config.faultProfile = p then { x with integrator := min x.integrator new.ceiling } else x) rfl
      fun a x => ?_)
    split <;> rfl
  | sample hm => exact .inl ((faultOps_sample s _).tree h)
  | escalate hm => rw [State.escalateAll, if_pos hm]; exact .inl rfl
  | close hm hr => exact .inl ((faultOps_close s _ _).tree h)
  | beginWalk => unfold State.beginWalk; split <;> exact .inl rfl
  | absorbVisit =>
    obtain ⟨u, w, hu, he⟩ := s.absorbVisit_ops
    exact .inl (he ▸ hu.tree h)
  | releaseVisit =>
    obtain ⟨u, w, hu, he⟩ := s.releaseVisit_ops
    exact .inl (he ▸ hu.tree h)
  | rebuildVisit hm hb hv => exact .inl ((faultOps_rebuildAt s _).tree h)
  | beginEntering owed hm => exact .inl (State.tree_of_mapAll (fun _ x => x.withGap) rfl fun _ _ => rfl)
  | leaveRun hm =>
    refine .inl (State.tree_of_assets ((Prod.mk.inj (State.endStorm_assets _)).1.trans ?_))
    simp only [(Prod.mk.inj (State.haltLine_assets _ _)).1]
    rfl
  | restartRuntime => exact .inl (State.tree_of_mapAll (fun _ x => x.restarted) rfl fun _ _ => rfl)
  | _ => exact .inl rfl

/-! ## The tree's law is kept -/

/-- A tree with fewer parents. -/
theorem State.up_of_fewer {s t : State} (h : ∀ d p, t.parentOf d = some p → s.parentOf d = some p) {n d z : Nat}
    (hz : t.up n d = some z) : s.up n d = some z := by
  induction n generalizing d with
  | zero => exact hz
  | succ n ih =>
    rw [State.up, Option.bind_eq_some_iff] at hz ⊢
    obtain ⟨p, hp, hz⟩ := hz
    exact ⟨p, h d p hp, ih hz⟩

theorem State.Forest.of_fewer {s t : State} (hs : s.Forest) (hw : t.assets.wf = true)
    (h : ∀ d p, t.parentOf d = some p → s.parentOf d = some p) (hp : ∀ {d p}, t.parentOf d = some p → t.asset? p ≠ none) :
    t.Forest where
  wf := hw
  present := hp
  shallow d := by
    by_contra hn
    obtain ⟨z, hz⟩ := Option.ne_none_iff_exists'.1 hn
    have := State.up_of_fewer h hz
    rw [hs.shallow] at this
    cases this

theorem le_foldl_max (l : List Nat) (m : Nat) : m ≤ l.foldl max m ∧ ∀ x ∈ l, x ≤ l.foldl max m := by
  induction l generalizing m with
  | nil => simp
  | cons y l ih =>
    obtain ⟨h1, h2⟩ := ih (max m y)
    refine ⟨le_trans (Nat.le_max_left _ _) h1, fun x hx => ?_⟩
    rcases List.mem_cons.1 hx with rfl | hx
    · exact le_trans (Nat.le_max_right _ _) h1
    · exact h2 x hx

/-- The height of an asset exceeds the levels between it and any asset below. -/
theorem lt_heightUpTo {s : State} (h : s.assets.wf = true) {f k d a : Nat} (hk : k ≤ f) (hd : s.up k d = some a) :
    k < heightUpTo s f a := by
  induction f generalizing k a with
  | zero =>
    obtain rfl : k = 0 := by omega
    exact Nat.zero_lt_one
  | succ f ih =>
    obtain ⟨h1, h2⟩ := le_foldl_max ((s.childrenOf a).map fun c => heightUpTo s f c + 1) 1
    cases k with
    | zero => exact h1
    | succ k =>
      rw [State.up_succ, Option.bind_eq_some_iff] at hd
      obtain ⟨c, hc, hca⟩ := hd
      have below := ih (by omega) hc
      have := h2 _ (List.mem_map.2 ⟨c, (State.mem_childrenOf h).2 hca, rfl⟩)
      rw [heightUpTo]
      omega

theorem State.up_depthOf {s : State} {d : Nat} (h : s.depthOf d ≤ Config.maxDepth) : s.up (s.depthOf d) d = none := by
  unfold State.depthOf State.ancestorsOf at *
  exact (length_ancestorsUpTo_lt_iff (n := (ancestorsUpTo s Config.maxDepth d).length) (by omega)).1 (le_refl _)

section
variable {s t : State} {a p : Nat} (hs : s.Forest) (hpar : ∀ d, t.parentOf d = if d = a then some p else s.parentOf d)
include hpar

/-- Above an asset, up to where the chain meets the one whose parent changes, nothing changes. -/
theorem State.up_of_unmet {d n : Nat} (h : ∀ m < n, s.up m d ≠ some a) : t.up n d = s.up n d := by
  induction n with
  | zero => rfl
  | succ n ih =>
    rw [State.up_succ, State.up_succ, ih fun m hm => h m (by omega)]
    have met := h n (by omega)
    cases hc : s.up n d with
    | none => rfl
    | some c =>
      rw [hc] at met
      simp only [Option.bind_some, hpar]
      rw [if_neg fun hca : c = a => met (congrArg some hca)]

include hs in
/-- The new parent of R5: neither the asset nor below it, and shallow enough for the asset's height. -/
theorem State.up_of_reparented (hpa : p ≠ a) (hdesc : p ∉ s.descendantsOf a)
    (hdepth : s.depthOf p + s.heightOf a ≤ Config.maxDepth) (d : Nat) : t.up 6 d = none := by
  have apart (m : Nat) : s.up m p ≠ some a := by
    intro hm
    rcases Nat.eq_zero_or_pos m with rfl | hpos
    · exact hpa (Option.some.inj hm)
    · exact hdesc (hs.mem_descendantsOf.2 (hs.mem_ancestorsOf.2 ⟨m, hpos, hm⟩))
  by_cases hmet : ∃ k, s.up k d = some a
  · classical
    have hk := Nat.find_spec hmet
    have before : t.up (Nat.find hmet) d = s.up (Nat.find hmet) d :=
      State.up_of_unmet hpar fun m hm => Nat.find_min hmet hm
    generalize Nat.find hmet = k at hk before
    have hk6 : k < 6 := by
      by_contra hge
      rw [State.up_none_of_le (hs.shallow d) (by omega)] at hk
      cases hk
    have height : k < s.heightOf a := lt_heightUpTo hs.wf (by unfold Config.maxDepth; omega) hk
    have above : t.up (5 - k) p = none := by
      rw [State.up_of_unmet hpar fun m _ => apart m]
      unfold Config.maxDepth at hdepth
      exact State.up_none_of_le (State.up_depthOf (by unfold Config.maxDepth; omega)) (by omega)
    · rw [show 6 = k + (5 - k + 1) by omega, State.up_add, before, hk]
      simpa [State.up, hpar] using above
  · rw [State.up_of_unmet hpar fun m _ hm => hmet ⟨m, hm⟩, hs.shallow]

end

theorem State.parentOf_of_put {s t : State} {a : Nat} {parent : Option Nat} (h : t.tree = s.tree.put a parent) (d : Nat) :
    t.parentOf d = if d = a then parent else s.parentOf d := by
  rw [State.parentOf_eq, h]
  split
  · next hd => rw [hd, Table.get?_put_self]; rfl
  · next hd => rw [Table.get?_put_of_ne _ _ hd, ← State.parentOf_eq]

theorem State.present_of_put {s t : State} {a : Nat} {parent : Option Nat} (h : t.tree = s.tree.put a parent) (d : Nat) :
    t.asset? d ≠ none ↔ d = a ∨ s.asset? d ≠ none := by
  rw [State.asset?_ne_none_iff, h, State.asset?_ne_none_iff]
  by_cases hd : d = a
  · simp [hd]
  · simp [hd, Table.get?_put_of_ne _ _ hd]

theorem State.parentOf_of_del {s t : State} {a : Nat} (h : t.tree = s.tree.del a) (d : Nat) :
    t.parentOf d = if d = a then none else s.parentOf d := by
  rw [State.parentOf_eq, h]
  split
  · next hd => rw [hd, Table.get?_del_self]; rfl
  · next hd => rw [Table.get?_del_of_ne _ hd, ← State.parentOf_eq]

theorem State.present_of_del {s t : State} {a : Nat} (h : t.tree = s.tree.del a) (d : Nat) :
    t.asset? d ≠ none ↔ d ≠ a ∧ s.asset? d ≠ none := by
  rw [State.asset?_ne_none_iff, h, State.asset?_ne_none_iff]
  by_cases hd : d = a
  · simp [hd]
  · simp [hd, Table.get?_del_of_ne _ hd]

/-- An ASSET LOAD that passes the checks of R5. -/
theorem State.Forest.put {s t : State} (hs : s.Forest) {a : Nat} {parent : Option Nat} (hw : t.assets.wf = true)
    (hp : s.parentPresent parent = true) (hc : s.parentConflict a (s.asset? a) parent = false)
    (h : t.tree = s.tree.put a parent) : t.Forest := by
  have hpar := State.parentOf_of_put h
  have present {d p : Nat} (hd : t.parentOf d = some p) : t.asset? p ≠ none := by
    rw [State.present_of_put h]
    rw [hpar] at hd
    split at hd
    · subst hd
      exact .inr (Option.isSome_iff_ne_none.1 hp)
    · exact .inr (hs.present hd)
  by_cases hold : parent = none ∨ s.parentOf a = parent
  · refine hs.of_fewer hw (fun d p hd => ?_) present
    rw [hpar] at hd
    split at hd
    · next hda =>
      subst hd
      rw [hda]
      exact hold.resolve_left nofun
    · exact hd
  · obtain ⟨hnone, hne⟩ := not_or.1 hold
    obtain ⟨p, rfl⟩ := Option.ne_none_iff_exists'.1 hnone
    rw [State.parentConflict, if_neg (by exact hne)] at hc
    simp only [decide_eq_false_iff_not, not_or, List.contains_iff_mem, Nat.not_lt] at hc
    obtain ⟨hpa, hdesc, hdepth⟩ := hc
    exact ⟨hw, present, State.up_of_reparented hs hpar hpa hdesc hdepth⟩

/-- The ERASE of an asset without children. -/
theorem State.Forest.del {s t : State} (hs : s.Forest) {a : Nat} (hw : t.assets.wf = true) (hc : s.hasChild a = false)
    (h : t.tree = s.tree.del a) : t.Forest := by
  have fewer (d p : Nat) (hd : t.parentOf d = some p) : s.parentOf d = some p := by
    rw [State.parentOf_of_del h] at hd
    split at hd
    · cases hd
    · exact hd
  refine hs.of_fewer hw fewer fun {d p} hd => (State.present_of_del h p).2 ⟨?_, hs.present (fewer d p hd)⟩
  rintro rfl
  rw [(State.hasChild_iff hs.wf).2 ⟨d, fewer d p hd⟩] at hc
  cases hc

theorem Move.forest {s t : State} (ht : Move s t) (hc : s.Canonical) (h : s.Forest) : t.Forest := by
  have hw := (ht.canonical hc).1
  obtain he | ⟨a, config, -, hp, hx, he⟩ | ⟨a, -, hx, he⟩ | he := ht.tree hc
  · exact h.of_tree he
  · exact h.put hw hp hx he
  · exact h.del hw hx he
  · exact { wf := hw, present := fun hd => by simp [State.parentOf_eq, he] at hd,
            shallow := fun d => by simp [State.up, State.parentOf_eq, he] }

/-- The law of the tree, with the canonical form it is read by. -/
theorem law_forest : Law fun s => s.Canonical ∧ s.Forest :=
  ⟨fun ht h => ⟨ht.canonical h.1, ht.forest h.1 h.2⟩, fun _ h => ⟨h.1, h.2.setPending _⟩⟩

/-- Settles O60: an ASSET LOAD changes one parent as R5 allows, an ERASE takes a leaf, and nothing else changes the tree. -/
theorem treeLawKept : Obligations.TreeLawKept := by
  intro s t hc h ht
  exact (law_forest.step ⟨hc, h.forest hc.1⟩ ht).2.treeLaw

end Sys2Proof.Machine
end

section
/-! PROOFS. Every field of the part keeps its range: the units' fields and the entries of the keyed tables, read as one
structure, a field of it for each thing a move can change. -/

namespace Sys2Proof.Machine

/-! ## The law, field by field -/

/-- The law of ranges, an entry for each field of the state. -/
structure State.Ranged (s : State) : Prop where
  time : s.time.InRange
  owed : s.owed.Nodup
  trunk : s.trunk.InRange
  lines : ∀ k : Fin 4, (s.line k).InRange k
  idle : s.IdleLinesEmpty
  stations : ∀ e ∈ s.outstations, s.OutstationInRange e.1 e.2
  faultProfiles : ∀ p : Fin 16, (s.faultProfile p).InRange
  loopProfiles : ∀ p : Fin 8, (s.loopProfile p).InRange
  walkList : ∀ e ∈ s.walkList, e.root < Config.assetCapacity
  walk : ∀ w ∈ s.walk, w.root < Config.assetCapacity ∧ (∀ c ∈ w.cursor, c < Config.assetCapacity)
    ∧ ∀ id ∈ w.recorded, 1 ≤ id ∧ id ≤ 65535
  last : ∀ b ∈ s.rebuild, ∀ v ∈ b.last, v < Config.assetCapacity
  rebuild : s.rebuild ≠ none ↔ s.mode = .entering
  storm : s.StormInRange
  beacons : ∀ b : Fin 4, (s.beacon b).InRange
  drops : s.drops ≤ Config.counterBound
  nextId : 1 ≤ s.nextId ∧ s.nextId ≤ 65535
  assets : ∀ e ∈ s.assets, e.1 < Config.assetCapacity ∧ e.2.InRange
  points : ∀ e ∈ s.points, e.1 < 131072 ∧ e.2.InRange
  records : ∀ e ∈ s.records, 1 ≤ e.1 ∧ e.1 ≤ 65535 ∧ e.2.InRange
  waiting : ∀ a ∈ s.waiting, a < Config.assetCapacity

theorem State.ranged_iff (s : State) : s.Ranged ↔ s.InRange :=
  ⟨fun h => ⟨⟨h.time, h.owed, h.trunk, h.lines, h.idle, h.faultProfiles, h.loopProfiles,
      ⟨h.walkList, h.walk, h.last, h.rebuild⟩, h.storm, h.beacons, h.drops, h.nextId⟩,
      ⟨h.assets, h.stations, h.points, h.records, h.waiting⟩⟩,
    fun ⟨⟨ht, ho, hu, hl, hi, hf, hp, ⟨hw1, hw2, hw3, hw4⟩, hs, hb, hd, hn⟩, ⟨ha, hst, hpt, hr, hwt⟩⟩ =>
      ⟨ht, ho, hu, hl, hi, hst, hf, hp, hw1, hw2, hw3, hw4, hs, hb, hd, hn, ha, hpt, hr, hwt⟩⟩

/-! ## Entries of tables -/

/-- The entries after a put are the new one and old ones under other keys. -/
theorem Table.mem_put_of_wf {α : Type} {t : Table α} (h : t.wf = true) {k : Nat} {x : α} {e : Nat × α}
    (he : e ∈ t.put k x) : e = (k, x) ∨ e.1 ≠ k ∧ e ∈ t := by
  have hg := Table.get?_of_mem (Table.wf_put h k x) he
  by_cases hk : e.1 = k
  · rw [hk, Table.get?_put_self] at hg
    exact .inl (Prod.ext hk (Option.some.inj hg).symm)
  · rw [Table.get?_put_of_ne _ _ hk] at hg
    exact .inr ⟨hk, Table.mem_of_get? hg⟩

theorem Table.forall_mem_put {α : Type} {P : Nat × α → Prop} {t : Table α} (h : ∀ e ∈ t, P e) {k : Nat} {x : α}
    (hx : P (k, x)) : ∀ e ∈ t.put k x, P e := by
  intro e he
  rcases Table.mem_put he with rfl | he
  · exact hx
  · exact h e he

theorem Table.forall_mem_mapAll {α : Type} {P : Nat × α → Prop} {t : Table α} {f : Nat → α → α}
    (h : ∀ e ∈ t, P (e.1, f e.1 e.2)) : ∀ e ∈ t.mapAll f, P e := by
  intro e he
  obtain ⟨e', he', rfl⟩ := List.mem_map.1 he
  exact h e' he'

theorem Table.forall_mem_adjust {α : Type} {P : Nat × α → Prop} {t : Table α} (h : ∀ e ∈ t, P e) {k : Nat} {f : α → α}
    (hf : ∀ x, (k, x) ∈ t → P (k, f x)) : ∀ e ∈ t.adjust k f, P e := by
  intro e he
  rcases Table.mem_adjust he with ⟨he, -⟩ | ⟨x, hx, rfl⟩
  · exact h e he
  · exact hf x hx

theorem State.Ranged.asset_lt {s : State} (h : s.Ranged) {a : Nat} (ha : s.asset? a ≠ none) : a < Config.assetCapacity := by
  obtain ⟨x, hx⟩ := Option.ne_none_iff_exists'.1 ha
  exact (h.assets _ (Table.mem_of_get? hx)).1

theorem State.Ranged.asset {s : State} (h : s.Ranged) {a : Nat} {x : Asset} (hx : s.asset? a = some x) : x.InRange :=
  (h.assets _ (Table.mem_of_get? hx)).2

/-! ## Single fields -/

theorem bump_le (n : Nat) : bump n ≤ Config.counterBound := Nat.min_le_left _ _

theorem Trunk.InRange.place {t : Trunk} (h : t.InRange) (f : TrunkFrame) : (t.place f).InRange := by
  obtain ⟨ho, hn1, hn2, ha, hc⟩ := h
  refine ⟨Trunk.occupancy_place_le ho f, ?_, ?_, ?_, ?_⟩
  · rwa [Trunk.place_node]
  · rwa [Trunk.place_node]
  · rwa [Trunk.place_node, Trunk.place_alternate]
  · rwa [Trunk.place_checkFails]

theorem Trunk.InRange.begun {t : Trunk} (h : t.InRange) (storm : Bool) : (t.begun storm).InRange := by
  obtain ⟨ho, hr⟩ := h
  unfold Trunk.begun
  split
  · next f rest hs hw =>
    refine ⟨?_, hr⟩
    simp only [Trunk.occupancy, hs, hw, List.length_cons] at ho
    simpa [Trunk.occupancy] using ho
  · exact ⟨ho, hr⟩

theorem Trunk.InRange.hushed {t : Trunk} (h : t.InRange) : Trunk.InRange { t with sending := none } := by
  obtain ⟨ho, hr⟩ := h
  exact ⟨le_trans (by simp [Trunk.occupancy]) ho, hr⟩

theorem Beacon.InRange.settle {b : Beacon} (h : b.InRange) (v : Bool) : (b.settle v).InRange := by
  obtain ⟨ha, hc, hv, hn, hl, hs, hz⟩ := h
  unfold Beacon.settle
  split
  · exact ⟨ha, hc, hv, hn, hl, hs, hz⟩
  · split
    · split
      · next ho => exact ⟨ha, hc, fun _ => ho, hn, hl, hs, hz⟩
      · cases hst : b.stretch <;> simp_all [Beacon.turnOn, Stretch.seconds, Beacon.InRange]
    · split
      · exact ⟨ha, hc, by simp, hn, hl, hs, hz⟩
      · next hne =>
        obtain ⟨hlatch, hcount⟩ := not_or.1 hne
        exact ⟨ha, hc, by simp, fun h => absurd h hcount, fun h => absurd h hlatch, hs, hz⟩

theorem State.beacon_settleBeacons (s : State) (b : Fin 4) :
    s.settleBeacons.beacon b = (s.beacon b).settle (s.sourceValue (s.beacon b).source (s.beacon b).argument) :=
  Vector.getElem_map _ b.isLt

theorem State.beacon_adjustBeacon (s : State) (b c : Fin 4) (f : Beacon → Beacon) :
    (s.adjustBeacon b f).beacon c = if c = b then f (s.beacon b) else s.beacon c := by
  change (s.beacons.set b.val _ b.isLt)[c.val] = _
  rw [Vector.getElem_set]
  simp only [Fin.val_inj, eq_comm (a := b)]
  rfl

theorem State.Ranged.settleBeacons {s : State} (h : s.Ranged) : s.settleBeacons.Ranged :=
  { h with beacons := fun b => by rw [State.beacon_settleBeacons]; exact (h.beacons b).settle _ }

theorem FaultRecord.Tuned.inRange {r r' : FaultRecord} (h : r.Tuned r') (hr : r.InRange) : r'.InRange := by
  obtain ⟨ha, hor, hod, hs, hm, hu, hc, hac⟩ := hr
  refine ⟨h.asset ▸ ha, h.openedRun ▸ hor, ?_, h.steps ▸ hs, h.minutes ▸ hm, h.urgency hu, ?_, ?_⟩
  · rw [h.openedDay]; exact hod
  · rw [h.console]; exact hc
  · rw [h.console, h.state]; exact hac

theorem State.Marked.inRange {s : State} (hs : s.Ranged) {x y : Asset} (h : s.Marked x y) (hx : x.InRange) : y.InRange := by
  obtain ⟨hw1, hw2, hp, hl, hw, hc, ha, hf⟩ := hx
  refine ⟨h.config ▸ hw1, h.config ▸ hw2, h.config ▸ hp, h.config ▸ hl, ?_, h.window ▸ hc, fun z hz => ?_, fun id hid => ?_⟩
  · rw [h.window, h.config]; exact hw
  · exact (h.absorbedBy z hz).elim (ha z) hs.asset_lt
  · exact (h.faultId id hid).elim (hf id) fun h => h hs.nextId

/-! ## The fault table -/

theorem State.newRecord_inRange {s : State} (hs : s.Ranged) {a : Nat} {x : Asset} (hx : s.asset? a = some x)
    (severity : Severity) : (s.newRecord a x severity).InRange := by
  obtain ⟨-, hr, hd⟩ := hs.time
  exact ⟨hs.asset_lt (a := a) (by simp [hx]), hr, hd, Nat.zero_le _, Nat.zero_le _, urgencyOf_le _ _ _ _ _, by rintro c ⟨⟩,
    by simp [State.newRecord]⟩

theorem queueEntry_mem {l : List WalkEntry} {root : Nat} {kind : WalkKind} {e : WalkEntry} (h : e ∈ queueEntry l root kind) :
    e.root = root ∨ e ∈ l := by
  unfold queueEntry at h
  split at h
  · obtain ⟨e', he', rfl⟩ := List.mem_map.1 h
    split
    · next hr => exact .inl hr
    · exact .inr he'
  · rcases List.mem_append.1 h with h | h
    · exact .inr h
    · rw [List.mem_singleton.1 h]
      exact .inl rfl

theorem State.hasChild_present {s : State} {a : Nat} (h : s.hasChild a = true) : ∃ e ∈ s.assets, e.2.config.parent = some a := by
  rw [State.hasChild, Bool.not_eq_true', List.isEmpty_eq_false_iff] at h
  obtain ⟨c, hc⟩ := List.exists_mem_of_ne_nil _ h
  obtain ⟨e, he, rfl⟩ := List.mem_map.1 hc
  obtain ⟨hm, hp⟩ := List.mem_filter.1 he
  exact ⟨e, hm, by simpa using hp⟩

theorem FaultOp.ranged {s t : State} (ht : FaultOp s t) (h : s.Ranged) : t.Ranged := by
  cases ht with
  | record id hf =>
    refine { h with records := Table.forall_mem_adjust h.records fun r hr => ?_ }
    obtain ⟨h1, h2, hin⟩ := h.records _ hr
    exact ⟨h1, h2, (hf r).inRange hin⟩
  | mark a hf =>
    refine { h with assets := Table.forall_mem_adjust h.assets fun x hx => ?_ }
    obtain ⟨h1, hin⟩ := h.assets _ hx
    exact ⟨h1, (hf x).inRange h hin⟩
  | @sampled a x hx w =>
    have hin := h.assets (a, x) (Table.mem_of_get? hx)
    exact { h with assets := Table.forall_mem_put h.assets hin }
  | create hx severity hid =>
    obtain ⟨h1, h2⟩ := hid h.nextId
    exact { h with records := Table.forall_mem_put h.records ⟨h1, h2, State.newRecord_inRange h hx severity⟩ }
  | discard id => exact { h with records := fun e he => h.records e (List.mem_filter.1 he).1 }
  | nextId hn => exact { h with nextId := hn h.nextId }
  | waiting hw => exact { h with waiting := fun a ha => (hw a ha).elim (h.waiting a) h.asset_lt }
  | @queue a ha kind =>
    refine { h with walkList := fun e he => ?_ }
    rcases queueEntry_mem he with hroot | he
    · obtain ⟨e', he', hp⟩ := State.hasChild_present ha
      obtain ⟨-, -, -, hparent, -⟩ := h.assets e' he'
      exact hroot ▸ hparent a hp
    · exact h.walkList e he
  | notify n => exact { h with trunk := h.trunk.place _ }
  | countOpen =>
    obtain ⟨he, hx, hq1, hq, hc, -, hoff, hon⟩ := h.storm
    exact { h with storm := ⟨he, hx, hq1, hq, hc, bump_le _, hoff, hon⟩ }

theorem FaultOps.ranged {s t : State} (ht : FaultOps s t) (h : s.Ranged) : t.Ranged :=
  FaultOps.keep (P := State.Ranged) FaultOp.ranged ht h

/-! ## Lines and their stations -/

/-- What a station's record owes to the unit of its line. -/
structure Line.Fits (l : Line) (o : Nat) (x : Outstation) : Prop where
  countdown : x.countdown ≤ l.settings.countdownBound
  retry : x.retry ≤ l.settings.n2
  sweeping : x.retry ≠ 0 → ∃ t ∈ l.transaction, t.outstation = o ∧ t.kind.isSweep = true

/-- What it owes to no other field. -/
structure Outstation.Sane (x : Outstation) (o : Nat) : Prop where
  index : o ≤ 127
  address : 1 ≤ x.config.address ∧ x.config.address ≤ 250
  link : ∀ a ∈ x.config.link, a < Config.assetCapacity
  lastHeard : ∀ n ∈ x.lastHeard, n < 4294967296 * 60

theorem State.outstationInRange_iff (s : State) (o : Nat) (x : Outstation) :
    s.OutstationInRange o x ↔ x.Sane o ∧ ∀ k : Fin 4, lineOf o = k.val → (s.line k).Fits o x :=
  ⟨fun ⟨h1, h2, h3, h4, h5, h6⟩ => ⟨⟨h1, ⟨h2, h3⟩, h4, h5⟩, fun k hk =>
      have ⟨hc, hr, hs⟩ := h6 k hk
      ⟨hc, hr, hs⟩⟩,
    fun ⟨⟨h1, ⟨h2, h3⟩, h4, h5⟩, h6⟩ => ⟨h1, h2, h3, h4, h5, fun k hk =>
      have h := h6 k hk
      ⟨h.countdown, h.retry, h.sweeping⟩⟩⟩

theorem Line.Fits.retry_eq_zero {l : Line} {o : Nat} {x : Outstation} (h : l.Fits o x)
    (hn : ∀ t ∈ l.transaction, t.kind.isSweep = true → t.outstation ≠ o) : x.retry = 0 := by
  by_contra hr
  obtain ⟨t, ht, ho, hk⟩ := h.sweeping hr
  exact hn t ht hk ho

/-- A line that goes on sweeping the stations it was sweeping, under the same settings. -/
structure Line.Serves (l l' : Line) : Prop where
  settings : l'.settings = l.settings
  sweeping : ∀ t ∈ l.transaction, t.kind.isSweep = true → ∃ t' ∈ l'.transaction, t'.outstation = t.outstation ∧ t'.kind.isSweep = true

theorem Line.Fits.of_serves {l l' : Line} {o : Nat} {x : Outstation} (h : l.Fits o x) (hs : l.Serves l') : l'.Fits o x where
  countdown := hs.settings ▸ h.countdown
  retry := hs.settings ▸ h.retry
  sweeping hr := by
    obtain ⟨t, ht, ho, hk⟩ := h.sweeping hr
    obtain ⟨t', ht', ho', hk'⟩ := hs.sweeping t ht hk
    exact ⟨t', ht', ho'.trans ho, hk'⟩

theorem Line.serves_of_eq {l l' : Line} (hs : l'.settings = l.settings) (ht : l'.transaction = l.transaction) :
    l.Serves l' := ⟨hs, fun t h hk => ⟨t, ht ▸ h, rfl, hk⟩⟩

theorem State.forall_line_adjustLine {s : State} {P : Fin 4 → Line → Prop} {k : Fin 4} {f : Line → Line}
    (h : ∀ j ≠ k, P j (s.line j)) (hf : P k (f (s.line k))) : ∀ j, P j ((s.adjustLine k f).line j) := by
  intro j
  by_cases hj : j = k
  · subst hj
    rw [State.adjustLine_line_self]
    exact hf
  · rw [State.adjustLine_line_of_ne s hj]
    exact h j hj

/-- An idle line is empty (R37, R41, R42). -/
def Line.IdleEmpty (mode : Mode) (l : Line) : Prop :=
  mode ≠ .run ∨ l.settings.personality = .off → l.transaction = none ∧ l.queue = [] ∧ l.received = []

/-- One line changes and keeps serving its stations. -/
theorem State.Ranged.adjustLine {s : State} (h : s.Ranged) {k : Fin 4} {f : Line → Line} (hin : (f (s.line k)).InRange k)
    (hserves : (s.line k).Serves (f (s.line k)))
    (hidle : (f (s.line k)).IdleEmpty s.mode) :
    (s.adjustLine k f).Ranged := by
  refine { h with
    lines := State.forall_line_adjustLine (P := fun j l => l.InRange j) (fun j _ => h.lines j) hin
    idle := State.forall_line_adjustLine (P := fun _ l => l.IdleEmpty s.mode) (fun j _ => h.idle j) hidle
    stations := fun e he => ?_ }
  obtain ⟨hsane, hfits⟩ := (s.outstationInRange_iff _ _).1 (h.stations e he)
  exact (State.outstationInRange_iff _ _ _).2 ⟨hsane, State.forall_line_adjustLine
    (P := fun j l => lineOf e.1 = j.val → l.Fits e.1 e.2) (fun j _ => hfits j) fun hk => (hfits k hk).of_serves hserves⟩

/-- A line is at work only in RUN, under a personality (R19). -/
theorem State.Ranged.busy {s : State} (h : s.Ranged) {k : Fin 4} {t : Transaction} (ht : (s.line k).transaction = some t) :
    s.mode = .run ∧ (s.line k).settings.personality ≠ .off := by
  constructor
  · by_contra hm
    rw [(h.idle k (.inl hm)).1] at ht
    cases ht
  · intro hp
    rw [(h.idle k (.inr hp)).1] at ht
    cases ht

/-- The stations change, the lines do not. -/
theorem State.Ranged.setOutstations {s : State} (h : s.Ranged) {x : Table Outstation}
    (hx : ∀ e ∈ x, e.2.Sane e.1 ∧ ∀ k : Fin 4, lineOf e.1 = k.val → (s.line k).Fits e.1 e.2) : (s.setOutstations x).Ranged :=
  { h with stations := fun e he => (State.outstationInRange_iff _ _ _).2 (hx e he) }

theorem State.Ranged.station {s : State} (h : s.Ranged) {e : Nat × Outstation} (he : e ∈ s.outstations) :
    e.2.Sane e.1 ∧ ∀ k : Fin 4, lineOf e.1 = k.val → (s.line k).Fits e.1 e.2 :=
  (s.outstationInRange_iff _ _).1 (h.stations e he)

/-- A line drops its transaction: the sweep it was making, if any, was of a station put back with a retry count of 0. -/
theorem State.Ranged.emptyLine {s : State} (h : s.Ranged) {k : Fin 4} {f : Line → Line} {x : Table Outstation}
    (hset : (f (s.line k)).settings = (s.line k).settings) (hin : (f (s.line k)).InRange k)
    (hidle : (f (s.line k)).IdleEmpty s.mode)
    (hx : ∀ e ∈ x, e.2.Sane e.1
      ∧ ∀ j : Fin 4, lineOf e.1 = j.val → (s.line j).Fits e.1 e.2 ∧ (j = k → e.2.retry = 0)) :
    ((s.adjustLine k f).setOutstations x).Ranged := by
  refine { h with
    lines := State.forall_line_adjustLine (P := fun j l => l.InRange j) (fun j _ => h.lines j) hin
    idle := State.forall_line_adjustLine (P := fun _ l => l.IdleEmpty s.mode) (fun j _ => h.idle j) hidle
    stations := fun e he => ?_ }
  obtain ⟨hsane, hfits⟩ := hx e he
  refine (State.outstationInRange_iff _ _ _).2 ⟨hsane, State.forall_line_adjustLine
    (P := fun j l => lineOf e.1 = j.val → l.Fits e.1 e.2) (fun j _ hj => (hfits j hj).1) fun hk => ?_⟩
  obtain ⟨hf, hz⟩ := hfits k hk
  exact ⟨hset ▸ hf.countdown, hset ▸ hf.retry, fun hne => absurd (hz rfl) hne⟩

/-- As `State.Ranged.emptyLine`, of a line that keeps its queue and its bytes. -/
theorem State.Ranged.dropTransaction {s : State} (h : s.Ranged) {k : Fin 4} {x : Table Outstation}
    (hx : ∀ e ∈ x, e.2.Sane e.1
      ∧ ∀ j : Fin 4, lineOf e.1 = j.val → (s.line j).Fits e.1 e.2 ∧ (j = k → e.2.retry = 0)) :
    ((s.setTransaction k none).setOutstations x).Ranged := by
  obtain ⟨hset, hcnt, hql, hq, -, hpp, hrec⟩ := h.lines k
  exact h.emptyLine (f := fun l => { l with transaction := none }) rfl ⟨hset, hcnt, hql, hq, by rintro t ⟨⟩, hpp, hrec⟩
    (fun hk => ⟨rfl, (h.idle k hk).2⟩) hx

end Sys2Proof.Machine
end

section
/-! PROOFS. Every step keeps every field in its range (section 2.1 to section 11.0): the moves that change the lines, their
stations, the assets or the mode, one by one, and the law. -/

namespace Sys2Proof.Machine

theorem LineSettings.revisit_le {l : LineSettings} (h : l.personality ≠ .off) : l.revisit ≤ l.countdownBound := by
  unfold LineSettings.revisit LineSettings.countdownBound
  cases hp : l.personality with
  | off => exact absurd hp h
  | polled => exact le_refl _
  | exception => exact le_refl _

section
variable {s : State} (h : s.Ranged)
include h

/-! ## Line units -/

theorem State.Ranged.countOn (k : Fin 4) {f : LineCounters → LineCounters} (hf : ∀ c : LineCounters, c.InRange → (f c).InRange) :
    (s.countOn k f).Ranged := by
  obtain ⟨hset, hcnt, hrest⟩ := h.lines k
  exact h.adjustLine ⟨hset, hf _ hcnt, hrest⟩ (Line.serves_of_eq rfl rfl) (h.idle k)

theorem State.Ranged.receive {k : Fin 4} {bytes : List Byte} (hr : s.receiving k = true)
    (hb : (s.line k).settings.fmax ≤ 255 → bytes.length ≤ 254) : (s.setReceived k bytes).Ranged := by
  obtain ⟨hset, hcnt, hql, hq, ht, hpp, -⟩ := h.lines k
  obtain ⟨-, -, -, -, -, -, -, -, hfmax⟩ := id hset
  refine h.adjustLine ⟨hset, hcnt, hql, hq, ht, hpp, hb hfmax⟩ (Line.serves_of_eq rfl rfl) fun hidle => ?_
  rcases hidle with hm | hp
  · exact absurd (State.receiving_run hr) hm
  · exact absurd hr (by simp [State.receiving, State.lineState, show (s.line k).settings.personality = .off from hp])

theorem State.Ranged.enqueue {k : Fin 4} {e : Downlink} (he : e.InRange k)
    (hq : (s.line k).queue.length < Config.downlinkCapacity) (hp : (s.line k).settings.personality ≠ .off)
    (hm : s.mode = .run) : (s.adjustLine k fun l => { l with queue := l.queue ++ [e] }).Ranged := by
  obtain ⟨hset, hcnt, -, hqs, hrest⟩ := h.lines k
  refine h.adjustLine ⟨hset, hcnt, ?_, fun e' he' => ?_, hrest⟩ (Line.serves_of_eq rfl rfl) fun hidle => ?_
  · rw [List.length_append]
    exact hq
  · rcases List.mem_append.1 he' with he' | he'
    · exact hqs e' he'
    · rw [List.mem_singleton.1 he']
      exact he
  · exact hidle.elim (absurd hm) (absurd · hp)

theorem State.Ranged.pollAt {k : Fin 4} {o : Nat} (ho : lineOf o = k.val) : (s.setPollPosition k o).Ranged := by
  obtain ⟨hset, hcnt, hql, hq, ht, -, hr⟩ := h.lines k
  exact h.adjustLine ⟨hset, hcnt, hql, hq, ht, fun _ ho' => Option.some.inj ho' ▸ ho, hr⟩ (Line.serves_of_eq rfl rfl) (h.idle k)

/-- A line with nothing in hand begins a transaction. -/
theorem State.Ranged.begin {k : Fin 4} {t : Transaction} {previous : Option Previous} (hf : s.lineFree k = true)
    (ht : t.InRange k) :
    (s.adjustLine k fun l => { l with transaction := some t, previous := previous }).Ranged := by
  obtain ⟨hp, hm, hnone⟩ := (s.lineFree_iff k).1 hf
  obtain ⟨hset, hcnt, hql, hq, -, hpp, hr⟩ := h.lines k
  refine h.adjustLine ⟨hset, hcnt, hql, hq, fun _ ht' => Option.some.inj ht' ▸ ht, hpp, hr⟩ ⟨rfl, ?_⟩ fun hidle => ?_
  · rw [hnone]
    rintro t ⟨⟩
  · exact hidle.elim (absurd hm) (absurd · hp)

theorem State.Ranged.beginSweep {k : Fin 4} {kind : TransactionKind} {o : Nat} (hf : s.lineFree k = true)
    (hk : kind.isSweep = true) (ho : lineOf o = k.val) : (s.beginTransaction k kind o .sweep).Ranged := by
  refine h.begin hf ⟨ho, fun e he => ?_, by rintro n ⟨⟩, by simp⟩
  cases kind with
  | order e => cases hk
  | sweep full => cases he
  | check full => cases he

theorem State.Ranged.unqueue (k : Fin 4) : (s.adjustLine k fun l => { l with queue := l.queue.tail }).Ranged := by
  obtain ⟨hset, hcnt, hql, hq, hrest⟩ := h.lines k
  refine h.adjustLine ⟨hset, hcnt, ?_, fun e he => hq e (List.mem_of_mem_tail he), hrest⟩ (Line.serves_of_eq rfl rfl) fun hidle => ?_
  · rw [List.length_tail]
    omega
  · obtain ⟨h1, h2, h3⟩ := h.idle k hidle
    exact ⟨h1, by dsimp only; rw [h2]; rfl, h3⟩

theorem State.Ranged.beginOrder {k : Fin 4} {e : Downlink} {rest : List Downlink} (hf : s.lineFree k = true)
    (hq : (s.line k).queue = e :: rest) : (s.beginOrder k e).Ranged := by
  obtain ⟨-, -, -, hqs, -⟩ := h.lines k
  have he : e.InRange k := hqs e (by rw [hq]; exact List.mem_cons_self)
  refine (h.unqueue k).begin ?_ ⟨he.1, ?_, by rintro n ⟨⟩, by simp⟩
  · rw [State.lineFree_iff] at hf ⊢
    rwa [State.adjustLine_line_self]
  · rintro e' ⟨⟩
    exact ⟨he, rfl⟩

/-- The transaction in hand moves on to another phase. -/
theorem State.Ranged.rephase {k : Fin 4} {t t' : Transaction} (ht : (s.line k).transaction = some t) (hk : t'.kind = t.kind)
    (ho : t'.outstation = t.outstation) (hn : ∀ n ∈ t'.timer, 1 ≤ n ∧ n ≤ 255)
    (hp : t'.timer ≠ none ↔ t'.phase = .awaiting) : (s.setTransaction k (some t')).Ranged := by
  obtain ⟨hset, hcnt, hql, hq, htr, hpp, hr⟩ := h.lines k
  obtain ⟨hl, hent, -, -⟩ := htr t ht
  refine h.adjustLine ⟨hset, hcnt, hql, hq, ?_, hpp, hr⟩ ⟨rfl, fun u hu hs => ⟨t', rfl, ?_⟩⟩ fun hidle => ?_
  · rintro u ⟨⟩
    exact ⟨ho ▸ hl, by rw [hk, ho]; exact hent, hn, hp⟩
  · obtain rfl : t = u := Option.some.inj (ht.symm.trans hu)
    exact ⟨ho, hk ▸ hs⟩
  · obtain ⟨hm, hoff⟩ := h.busy ht
    exact hidle.elim (absurd hm) (absurd · hoff)

theorem State.Ranged.startTimer {k : Fin 4} {t : Transaction} (ht : (s.line k).transaction = some t) :
    (s.startTimer k t).Ranged := by
  obtain ⟨⟨h1, h2, -⟩, -⟩ := h.lines k
  refine h.rephase ht rfl rfl ?_ (by simp)
  rintro n ⟨⟩
  exact ⟨h1, h2⟩

/-! ## Stations -/

/-- Every station's record changes. -/
theorem State.Ranged.mapOutstations {f : Nat → Outstation → Outstation}
    (hf : ∀ o x, x.Sane o → (f o x).Sane o)
    (hfits : ∀ o x (k : Fin 4), lineOf o = k.val → (s.line k).Fits o x → (s.line k).Fits o (f o x)) :
    (s.setOutstations (s.outstations.mapAll f)).Ranged := by
  refine h.setOutstations (Table.forall_mem_mapAll fun e he => ?_)
  obtain ⟨hsane, hfit⟩ := h.station he
  exact ⟨hf _ _ hsane, fun k hk => hfits _ _ k hk (hfit k hk)⟩

theorem State.Ranged.resync (o : Nat) : (s.adjustOutstation o fun x => { x with fullDue := true }).Ranged := by
  refine h.setOutstations (Table.forall_mem_adjust (fun e he => h.station he) fun x hx => ?_)
  obtain ⟨⟨h1, h2, h3, h4⟩, hfit⟩ := h.station hx
  exact ⟨⟨h1, h2, h3, h4⟩, fun k hk => ⟨(hfit k hk).countdown, (hfit k hk).retry, (hfit k hk).sweeping⟩⟩

theorem State.Ranged.lineSecond (k : Fin 4) : (s.lineSecond k).Ranged := by
  unfold State.lineSecond
  split
  · refine h.mapOutstations (fun o x hx => ?_) fun o x j hj hx => ?_
    · obtain ⟨h1, h2, h3, h4⟩ := hx
      unfold Outstation.secondTick
      split
      · split <;> exact ⟨h1, h2, h3, h4⟩
      · exact ⟨h1, h2, h3, h4⟩
    · obtain ⟨h1, h2, h3⟩ := hx
      unfold Outstation.secondTick
      split
      · split
        · exact ⟨le_trans (Nat.sub_le _ _) h1, h2, h3⟩
        · exact ⟨h1, h2, h3⟩
      · exact ⟨h1, h2, h3⟩
  · exact h

variable (hc : s.Canonical)

include hc in
theorem State.Ranged.setCountdown {k : Fin 4} {o n : Nat} {x : Outstation} (ho : lineOf o = k.val)
    (hx : (o, x) ∈ s.outstations)
    (hn : n ≤ x.countdown ∨ (s.line k).settings.personality = .polled ∧ n = (s.line k).settings.rv) :
    (s.setCountdown o n).Ranged := by
  refine h.setOutstations (Table.forall_mem_adjust (fun e he => h.station he) fun y hy => ?_)
  obtain rfl : x = y := Option.some.inj ((Table.get?_of_mem hc.2.1 hx).symm.trans (Table.get?_of_mem hc.2.1 hy))
  obtain ⟨⟨h1, h2, h3, h4⟩, hfit⟩ := h.station hx
  refine ⟨⟨h1, h2, h3, h4⟩, fun j hj => ⟨?_, (hfit j hj).retry, (hfit j hj).sweeping⟩⟩
  obtain rfl : j = k := Fin.ext (hj.symm.trans ho)
  rcases hn with hn | ⟨hp, rfl⟩
  · exact le_trans hn (hfit j hj).countdown
  · simp [LineSettings.countdownBound, hp]

include hc in
theorem State.Ranged.resend {k : Fin 4} {t : Transaction} (ht : (s.line k).transaction = some t) (hk : t.kind.isSweep = true)
    (hr : s.retryOf t.outstation < (s.line k).settings.n2) : (s.resendSweep k t).Ranged := by
  obtain ⟨-, -, -, -, htr, -⟩ := h.lines k
  obtain ⟨hl, -⟩ := htr t ht
  have sent : (s.setTransaction k (some { t with phase := .resending, timer := none })).Ranged :=
    h.rephase ht rfl rfl (by rintro n ⟨⟩) (by simp)
  refine sent.setOutstations (Table.forall_mem_adjust (fun e he => sent.station he) fun x hx => ?_)
  obtain ⟨⟨h1, h2, h3, h4⟩, hfit⟩ := sent.station hx
  refine ⟨⟨h1, h2, h3, h4⟩, fun j hj => ⟨(hfit j hj).countdown, ?_, fun _ => ?_⟩⟩
  all_goals obtain rfl : j = k := Fin.ext (hj.symm.trans hl)
  · have hget : s.outstation? t.outstation = some x := Table.get?_of_mem hc.2.1 hx
    rw [State.retryOf, hget] at hr
    simpa [State.setTransaction] using hr
  · simp [State.setTransaction, hk]

include hc in
/-- A sweep that fails or a transaction that ends puts its station back with a retry count of 0. -/
theorem State.Ranged.endTransaction {k : Fin 4} {t : Transaction} {y : Outstation} (ht : (s.line k).transaction = some t)
    (hy : y.Sane t.outstation) (hfit : ∀ j : Fin 4, lineOf t.outstation = j.val → (s.line j).Fits t.outstation y)
    (hr : y.retry = 0) : ((s.setTransaction k none).setOutstations (s.outstations.put t.outstation y)).Ranged := by
  refine h.dropTransaction fun e he => ?_
  rcases Table.mem_put_of_wf hc.2.1 he with rfl | ⟨hne, he⟩
  · exact ⟨hy, fun j hj => ⟨hfit j hj, fun _ => hr⟩⟩
  · obtain ⟨hsane, hfits⟩ := h.station he
    refine ⟨hsane, fun j hj => ⟨hfits j hj, ?_⟩⟩
    rintro rfl
    refine (hfits j hj).retry_eq_zero fun u hu _ => ?_
    obtain rfl : t = u := Option.some.inj (ht.symm.trans hu)
    exact Ne.symm hne

include hc in
theorem State.Ranged.drop {k : Fin 4} {t : Transaction} (ht : (s.line k).transaction = some t)
    (hd : t.kind.isSweep = false ∨ s.outstation? t.outstation = none) : (s.setTransaction k none).Ranged := by
  refine h.dropTransaction (x := s.outstations) fun e he => ?_
  obtain ⟨hsane, hfits⟩ := h.station he
  refine ⟨hsane, fun j hj => ⟨hfits j hj, ?_⟩⟩
  rintro rfl
  refine (hfits j hj).retry_eq_zero fun u hu hk ho => ?_
  obtain rfl : t = u := Option.some.inj (ht.symm.trans hu)
  rcases hd with hd | hd
  · rw [hk] at hd
    cases hd
  · rw [ho, State.outstation?, Table.get?_of_mem hc.2.1 he] at hd
    cases hd

include hc in
theorem State.Ranged.fail {k : Fin 4} {t : Transaction} {x y : Outstation} (ht : (s.line k).transaction = some t)
    (hx : s.outstation? t.outstation = some x) (hp : (s.line k).settings.personality ≠ .off) (hcfg : y.config = x.config)
    (hr : y.retry = 0) (hh : y.lastHeard = x.lastHeard)
    (hn : y.countdown = (s.line k).settings.revisit ∨ y.countdown = x.countdown) :
    ((s.setTransaction k none).setOutstations (s.outstations.put t.outstation y)).Ranged := by
  obtain ⟨-, -, -, -, htr, -⟩ := h.lines k
  obtain ⟨hl, -⟩ := htr t ht
  obtain ⟨⟨h1, h2, h3, h4⟩, hfits⟩ := h.station (Table.mem_of_get? hx)
  refine h.endTransaction hc ht ⟨h1, hcfg ▸ h2, hcfg ▸ h3, hh ▸ h4⟩ (fun j hj => ⟨?_, by rw [hr]; exact Nat.zero_le _, ?_⟩) hr
  · obtain rfl : j = k := Fin.ext (hj.symm.trans hl)
    rcases hn with hn | hn
    · rw [hn]
      exact LineSettings.revisit_le hp
    · rw [hn]
      exact (hfits j hj).countdown
  · exact fun hne => absurd hr hne

include hc in
/-- The line unit's part of a taken answer, with the awaited transaction it ends (R24). -/
theorem State.Ranged.hear {k : Fin 4} {o : Nat} {x : Outstation} (hx : (o, x) ∈ s.outstations) (ho : lineOf o = k.val) :
    (s.lineTakes k o x (s.endedBy k o)).Ranged := by
  have counted : (s.countOn k .goodFrame).Ranged := h.countOn k fun _ hc => hc.goodFrame
  obtain ⟨⟨h1, h2, h3, h4⟩, hfits⟩ := counted.station hx
  have now : s.runningSecond < 4294967296 * 60 := by
    obtain ⟨hsec, hrun, -⟩ := h.time
    unfold State.runningSecond
    omega
  have heard (b : Bool) : (x.heard s.runningSecond b).Sane o := ⟨h1, h2, h3, fun n hn => Option.some.inj hn ▸ now⟩
  have fits (b : Bool) (j : Fin 4) (hj : lineOf o = j.val) : ((s.countOn k .goodFrame).line j).Fits o (x.heard s.runningSecond b) :=
    ⟨(hfits j hj).countdown, Nat.zero_le _, fun hne => absurd rfl hne⟩
  have put (b : Bool) : ((s.countOn k .goodFrame).setOutstations (s.outstations.put o (x.heard s.runningSecond b))).Ranged :=
    counted.setOutstations (Table.forall_mem_put (fun e he => counted.station he) ⟨heard b, fits b⟩)
  unfold State.lineTakes
  dsimp only
  cases hend : s.endedBy k o with
  | none =>
    simp only [Option.isSome_none, Bool.false_eq_true, if_false]
    split
    · exact put _
    · exact { put false with trunk := (put false).trunk.place _ }
  | some t =>
    obtain ⟨ht, rfl⟩ : (s.line k).transaction = some t ∧ t.outstation = o := by
      unfold State.endedBy at hend
      split at hend
      · next u hu =>
        split at hend
        · next huo =>
          cases hend
          exact ⟨(State.awaitedOn_eq_some hu).1, huo⟩
        · cases hend
      · cases hend
    have ht' : ((s.countOn k .goodFrame).line k).transaction = some t := by rw [State.countOn_line]; exact ht
    have ended := counted.endTransaction hc ht' (heard _) (fits t.kind.carriesFull) rfl
    simp only [Option.isSome_some, if_true]
    split
    · exact ended
    · exact { ended with trunk := ended.trunk.place _ }

/-! ## Settings and records of stations (R18, R21 to R23) -/

/-- In MAINTAIN no station's sweep is in hand. -/
theorem State.Ranged.retry_eq_zero (hm : s.mode ≠ .run) {e : Nat × Outstation} (he : e ∈ s.outstations) {k : Fin 4}
    (hk : lineOf e.1 = k.val) : e.2.retry = 0 := by
  refine ((h.station he).2 k hk).retry_eq_zero fun t ht _ => ?_
  rw [(h.idle k (.inl hm)).1] at ht
  cases ht

omit h in
theorem Outstation.Sane.underSettings {x : Outstation} {o : Nat} (hx : x.Sane o) (old new : LineSettings) :
    (x.underSettings old new).Sane o := by
  obtain ⟨h1, h2, h3, h4⟩ := hx
  unfold Outstation.underSettings
  split
  · exact ⟨h1, h2, h3, by rintro n ⟨⟩⟩
  · split
    · exact ⟨h1, h2, h3, h4⟩
    · split <;> exact ⟨h1, h2, h3, h4⟩
    · split <;> exact ⟨h1, h2, h3, h4⟩

omit h in
/-- A station at rest under changed settings (R18). -/
theorem Line.Fits.underSettings {l : Line} {o : Nat} {x : Outstation} (hx : l.Fits o x) (hr : x.retry = 0) (new : LineSettings) :
    Line.Fits { l with settings := new } o (x.underSettings l.settings new) := by
  have retry : (x.underSettings l.settings new).retry = 0 := by
    unfold Outstation.underSettings
    repeat' split
    all_goals first | exact hr | rfl
  refine ⟨?_, by rw [retry]; exact Nat.zero_le _, fun hne => absurd retry hne⟩
  have hcd := hx.countdown
  unfold Outstation.underSettings
  unfold LineSettings.countdownBound at *
  split
  · exact Nat.zero_le _
  · next hp =>
    rw [not_not.1 hp] at hcd
    cases hper : new.personality with
    | off => rw [hper] at hcd; exact hcd
    | polled =>
      rw [hper] at hcd
      dsimp only at hcd ⊢
      split
      · exact Nat.min_le_right _ _
      · exact le_trans hcd (Nat.le_of_not_lt ‹_›)
    | exception =>
      rw [hper] at hcd
      dsimp only at hcd ⊢
      split
      · exact Nat.min_le_right _ _
      · exact le_trans hcd (Nat.le_of_not_lt ‹_›)

theorem State.Ranged.lineSettings (k : Fin 4) {new : LineSettings} (hm : s.mode = .maintain) (hn : new.InRange) :
    (s.storeLineSettings k new).Ranged := by
  refine State.Ranged.settleBeacons ?_
  obtain ⟨-, hline⟩ := h.lines k
  have hm' : s.mode ≠ .run := by rw [hm]; nofun
  refine { h with
    lines := State.forall_line_adjustLine (P := fun j l => l.InRange j) (f := fun l => { l with settings := new })
      (fun j _ => h.lines j)
      ⟨hn, hline⟩
    idle := State.forall_line_adjustLine (P := fun _ l => l.IdleEmpty s.mode) (f := fun l => { l with settings := new })
      (fun j _ => h.idle j) fun _ => h.idle k (.inl hm')
    stations := fun e he => ?_ }
  obtain ⟨e, hmem, rfl⟩ := List.mem_map.1 he
  obtain ⟨hsane, hfits⟩ := h.station hmem
  refine (State.outstationInRange_iff _ _ _).2 ⟨?_, ?_⟩
  · dsimp only
    split
    · exact hsane.underSettings _ _
    · exact hsane
  · refine State.forall_line_adjustLine (f := fun l => { l with settings := new })
      (P := fun j l => lineOf e.1 = j.val → l.Fits e.1 (if lineOf e.1 = k.val then e.2.underSettings (s.line k).settings new else e.2))
      (fun j hj hk => ?_) fun hk => ?_
    · rw [if_neg fun e => hj (Fin.ext (hk.symm.trans e))]
      exact hfits j hk
    · rw [if_pos hk]
      exact (hfits k hk).underSettings (h.retry_eq_zero hm' hmem hk) new

end

end Sys2Proof.Machine
end

section
/-! PROOFS. Every step keeps every field in its range: the moves that change points, assets, profiles and the mode, and
the law itself (O56). -/

namespace Sys2Proof.Machine

section
variable {s : State} (h : s.Ranged)
include h

/-! ## Stations and points -/

theorem State.Ranged.outstationLoad {o : Nat} {config : OutstationConfig} (ho : o ≤ 127)
    (hcfg : 1 ≤ config.address ∧ config.address ≤ 250) (hl : s.linkValid config.link = true) :
    (s.setOutstations (s.outstations.put o (outstationAfterLoad (s.outstation? o) config))).Ranged := by
  have link : ∀ a ∈ config.link, a < Config.assetCapacity := by
    intro a ha
    refine h.asset_lt fun hnone => ?_
    rw [show config.link = some a from ha, State.linkValid, hnone] at hl
    cases hl
  refine h.setOutstations (Table.forall_mem_put (fun e he => h.station he) ?_)
  unfold outstationAfterLoad
  cases hx : s.outstation? o with
  | none => exact ⟨⟨ho, hcfg, link, by rintro n ⟨⟩⟩, fun k hk => ⟨Nat.zero_le _, Nat.zero_le _, fun hne => absurd rfl hne⟩⟩
  | some x =>
    obtain ⟨⟨-, -, -, hlast⟩, hfits⟩ := h.station (Table.mem_of_get? hx)
    dsimp only
    split
    · exact ⟨⟨ho, hcfg, link, hlast⟩, fun k hk => ⟨(hfits k hk).countdown, (hfits k hk).retry, (hfits k hk).sweeping⟩⟩
    · exact ⟨⟨ho, hcfg, link, by rintro n ⟨⟩⟩, fun k hk => ⟨Nat.zero_le _, Nat.zero_le _, fun hne => absurd rfl hne⟩⟩

theorem State.Ranged.outstationErase (o : Nat) :
    ((s.setPoints (s.pointsWithoutPendingOf o)).setOutstations (s.outstations.del o)).Ranged :=
  { h.setOutstations (x := s.outstations.del o) fun _ he => h.station (List.mem_filter.1 he).1 with
    points := fun e he => h.points e (List.mem_filter.1 he).1 }

theorem State.Ranged.putPoint {key : Nat} {p : Point} (hp : s.PointFits key p) : (s.setPoints (s.points.put key p)).Ranged := by
  refine { h with points := Table.forall_mem_put h.points ⟨?_, fun a ha => ?_, fun n hn => ?_⟩ }
  · have index : pointOutstation key ≤ 127 := by
      rcases hp.outstation with hk | ⟨x, hx⟩
      · exact hk
      · exact (h.station hx).1.index
    unfold pointOutstation at index
    dsimp only
    omega
  · rcases hp.named a ha with ha | ⟨q, hq, ha⟩
    · exact h.asset_lt ha
    · exact (h.points _ (Table.mem_of_get? hq)).2.1 a ha
  · rcases hp.held n hn with hn | ⟨q, hq, hn⟩
    · exact hn
    · exact (h.points _ (Table.mem_of_get? hq)).2.2 n hn

omit h in
theorem Point.InRange.silenced {p : Point} (hp : p.InRange) : p.silenced.InRange := by
  obtain ⟨hn, hc⟩ := hp
  cases p with
  | status a c => exact ⟨hn, hc⟩
  | count a b => exact ⟨hn, by rintro n ⟨⟩⟩
  | pending c n => exact ⟨hn, hc⟩

theorem State.Ranged.silence (o : Nat) :
    (s.setPoints (s.points.mapAll fun key p => if pointOutstation key = o then p.silenced else p)).Ranged := by
  refine { h with points := fun e he => ?_ }
  obtain ⟨e, hmem, rfl⟩ := List.mem_map.1 he
  obtain ⟨hk, hp⟩ := h.points e hmem
  refine ⟨hk, ?_⟩
  dsimp only
  split
  · exact hp.silenced
  · exact hp

/-! ## Assets and profiles -/

omit h in
/-- An asset whose window fields change. -/
theorem Asset.InRange.mapWindow {x : Asset} (hx : x.InRange) {g : Window → Window} (hg : ∀ w, w.InRange → (g w).InRange) :
    Asset.InRange { x with window := x.window.map g } := by
  obtain ⟨hw1, hw2, hp, hl, hw, hc, ha, hf⟩ := hx
  refine ⟨hw1, hw2, hp, hl, ?_, fun w hw' => ?_, ha, hf⟩
  · rw [← hw]
    simp
  · obtain ⟨u, hu, rfl⟩ := Option.map_eq_some_iff.1 hw'
    exact hg u (hc u hu)

/-- Every asset changes. -/
theorem State.Ranged.mapAssets {f : Nat → Asset → Asset} (hf : ∀ a x, x.InRange → (f a x).InRange) :
    (s.setAssets (s.assets.mapAll f)).Ranged := by
  refine { h with assets := Table.forall_mem_mapAll fun e he => ?_ }
  obtain ⟨hk, hx⟩ := h.assets e he
  exact ⟨hk, hf _ _ hx⟩

theorem State.Ranged.putAsset {a : Nat} {x : Asset} (ha : a < Config.assetCapacity) (hx : x.InRange) :
    (s.putAsset a x).Ranged := { h with assets := Table.forall_mem_put h.assets ⟨ha, hx⟩ }

/-- Every record changes. -/
theorem State.Ranged.mapRecords {f : Nat → FaultRecord → FaultRecord} (hf : ∀ id r, r.InRange → (f id r).InRange) :
    (s.setRecords (s.records.mapAll f)).Ranged := by
  refine { h with records := Table.forall_mem_mapAll fun e he => ?_ }
  obtain ⟨h1, h2, hr⟩ := h.records e he
  exact ⟨h1, h2, hf _ _ hr⟩

theorem State.Ranged.adjustRecord (id : Nat) {f : FaultRecord → FaultRecord} (hf : ∀ r : FaultRecord, r.InRange → (f r).InRange) :
    (s.adjustRecord id f).Ranged := by
  refine { h with records := Table.forall_mem_adjust h.records fun r hr => ?_ }
  obtain ⟨h1, h2, hr⟩ := h.records _ hr
  exact ⟨h1, h2, hf r hr⟩

theorem State.Ranged.setFaultProfile (p : Fin 16) {new : FaultProfile} (hn : new.InRange) :
    (s.setFaultProfiles (s.faultProfiles.set p.val new p.isLt)).Ranged := by
  refine { h with faultProfiles := fun q => ?_ }
  by_cases hq : q = p
  · rw [hq, State.faultProfile_setFaultProfiles_self]
    exact hn
  · rw [State.faultProfile_setFaultProfiles_of_ne s hq]
    exact h.faultProfiles q

theorem State.Ranged.setLoopProfile (p : Fin 8) {new : LoopProfile} (hn : new.InRange) :
    (s.setLoopProfiles (s.loopProfiles.set p.val new p.isLt)).Ranged := by
  refine { h with loopProfiles := fun q => ?_ }
  change ((s.loopProfiles.set p.val new p.isLt)[q.val]).InRange
  rw [Vector.getElem_set]
  split
  · exact hn
  · exact h.loopProfiles q

theorem State.Ranged.storeFaultProfile (p : Fin 16) {new : FaultProfile} (hn : new.InRange) : (s.storeFaultProfile p new).Ranged := by
  refine State.Ranged.settleBeacons (State.Ranged.mapRecords ?_ fun id r hr => ?_)
  · refine (h.setFaultProfile p hn).mapAssets fun a x hx => ?_
    split
    · exact hx
    · exact hx
  · split
    · split
      · exact (State.refreshed_tuned _ r).inRange hr
      · exact hr
    · exact hr

theorem State.Ranged.newAsset {config : AssetConfig} (hcfg : config.InRange) :
    (s.newAsset config).InRange := by
  obtain ⟨⟨hw1, hw2⟩, hpar, hl⟩ := hcfg
  refine ⟨hw1, hw2, hpar, hl, ?_, fun w hw => ?_, fun z hz => ?_, by rintro id ⟨⟩⟩
  · unfold State.newAsset
    dsimp only
    split <;> simp [*]
  · unfold State.newAsset at hw
    dsimp only at hw
    split at hw
    · cases hw
      exact ⟨Nat.zero_le _, by rintro n ⟨⟩⟩
    · cases hw
  · unfold State.newAsset at hz
    dsimp only at hz
    split at hz
    · unfold State.inheritedAbsorber at hz
      split at hz
      · cases hz
      · next p hpp =>
        split at hz
        · next z' hz' =>
          cases hz
          obtain ⟨x, hx, hxz⟩ := Option.bind_eq_some_iff.1 hz'
          obtain ⟨-, -, -, -, -, -, hab, -⟩ := h.asset hx
          exact hab z hxz
        · split at hz
          · cases hz
            exact hpar z hpp
          · cases hz
    · cases hz

omit h in
theorem State.reconfigured_inRange (s : State) {x : Asset} (hx : x.InRange) {config : AssetConfig} (hcfg : config.InRange) :
    (s.reconfigured x config).InRange := by
  obtain ⟨-, -, -, -, hw, hc, hab, hf⟩ := hx
  obtain ⟨⟨hw1, hw2⟩, hpar, hl⟩ := hcfg
  refine ⟨hw1, hw2, hpar, hl, ?_, fun w hwin => ?_, hab, hf⟩
  · unfold State.reconfigured windowAfterLoad
    dsimp only
    split
    · simp [*]
    · next hk =>
      split
      · simpa using not_not.1 hk
      · next ho =>
        split
        · simp [hw, not_not.1 ho, not_not.1 hk]
        · simp [hw, not_not.1 ho, not_not.1 hk]
  · unfold State.reconfigured windowAfterLoad at hwin
    dsimp only at hwin
    split at hwin
    · cases hwin
    · split at hwin
      · cases hwin
        exact ⟨Nat.zero_le _, by rintro n ⟨⟩⟩
      · split at hwin
        · obtain ⟨u, hu, rfl⟩ := Option.map_eq_some_iff.1 hwin
          exact hc u hu
        · exact hc w hwin

theorem State.Ranged.storeAsset {a : Nat} {config : AssetConfig} (ha : a < Config.assetCapacity) (hcfg : config.InRange) :
    (s.storeAsset a config).Ranged := by
  unfold State.storeAsset
  split
  · exact h.putAsset ha (h.newAsset hcfg)
  · next x hx =>
    have stored := h.putAsset ha (State.reconfigured_inRange s (h.asset hx) hcfg)
    dsimp only
    split
    · exact State.Ranged.settleBeacons ((faultOps_refreshOn _ a).ranged stored)
    · exact stored

theorem State.Ranged.escalated {r : FaultRecord} (hr : r.InRange) : (s.escalated r).InRange := by
  obtain ⟨ha, hor, hod, hs, hm, hu, hc, hac⟩ := id hr
  unfold State.escalated
  split
  · exact hr
  · next x hx =>
    obtain ⟨-, -, -, -, -, -, -, -, -, -, -, -, -, hint⟩ := h.faultProfiles x.config.faultProfile
    dsimp only
    split
    · split
      · exact ⟨ha, hor, hod, hs, by dsimp only; omega, hu, hc, hac⟩
      · split
        · exact (State.refreshed_tuned s _).inRange ⟨ha, hor, hod, by dsimp only; omega, Nat.zero_le _, hu, hc, hac⟩
        · exact ⟨ha, hor, hod, le_refl _, Nat.zero_le _, hu, hc, hac⟩
    · exact hr

/-! ## Walks -/

omit h in
theorem State.mem_of_mem_childrenOf {s : State} {a c : Nat} (hc : c ∈ s.childrenOf a) : ∃ x, (c, x) ∈ s.assets := by
  obtain ⟨e, he, rfl⟩ := List.mem_map.1 hc
  exact ⟨e.2, (List.mem_filter.1 he).1⟩

theorem State.Ranged.child_lt {a c : Nat} (hc : c ∈ s.childrenOf a) : c < Config.assetCapacity := by
  obtain ⟨x, hx⟩ := State.mem_of_mem_childrenOf hc
  exact (h.assets _ hx).1

theorem State.Ranged.nextCursor_lt {parent : Nat} {cursor next : List Nat} (hn : nextCursor s parent cursor = some next) :
    ∀ c ∈ next, c < Config.assetCapacity := by
  induction cursor generalizing parent next with
  | nil =>
    obtain ⟨c, hc, rfl⟩ := Option.map_eq_some_iff.1 hn
    intro c' hc'
    rw [List.mem_singleton.1 hc']
    exact h.child_lt (List.mem_of_head? hc)
  | cons c rest ih =>
    rw [nextCursor] at hn
    split at hn
    · next cur hcur =>
      split at hcur
      · next hmem =>
        cases hn
        intro c' hc'
        rcases List.mem_cons.1 hc' with rfl | hc'
        · exact h.child_lt (List.contains_iff_mem.1 hmem)
        · exact ih hcur c' hc'
      · cases hcur
    · obtain ⟨c', hc', rfl⟩ := Option.map_eq_some_iff.1 hn
      intro c'' hc''
      rw [List.mem_singleton.1 hc'']
      exact h.child_lt (List.mem_of_find?_eq_some hc')

theorem State.Ranged.descendant_lt {fuel a d : Nat} (hd : d ∈ descendantsUpTo s fuel a) : d < Config.assetCapacity := by
  induction fuel generalizing a with
  | zero => cases hd
  | succ f ih =>
    rw [descendantsUpTo] at hd
    obtain ⟨c, hc, hd⟩ := List.mem_flatMap.1 hd
    rcases List.mem_cons.1 hd with rfl | hd
    · exact h.child_lt hc
    · exact ih hd

theorem State.Ranged.forest_lt {d : Nat} (hd : d ∈ s.forest) : d < Config.assetCapacity := by
  obtain ⟨r, hr, hd⟩ := List.mem_flatMap.1 hd
  rcases List.mem_cons.1 hd with rfl | hd
  · obtain ⟨e, he, rfl⟩ := List.mem_map.1 hr
    exact (h.assets e (List.mem_filter.1 he).1).1
  · exact h.descendant_lt hd

omit h in
theorem State.rebuildNext_mem {s : State} {last : Option Nat} {v : Nat} (hv : s.rebuildNext last = some v) : v ∈ s.forest := by
  unfold State.rebuildNext at hv
  split at hv
  · exact List.mem_of_head? hv
  · exact (List.dropWhile_sublist _).subset (List.mem_of_mem_drop (List.mem_of_head? hv))

theorem State.Ranged.beginWalk : s.beginWalk.Ranged := by
  unfold State.beginWalk
  split
  · next e rest hm hw hl =>
    have list : ∀ e' ∈ e :: rest, e'.root < Config.assetCapacity := fun e' he => h.walkList e' (by rw [hl]; exact he)
    refine { h with walkList := fun e' he => list e' (List.mem_cons_of_mem _ he), walk := ?_ }
    intro w hw'
    change (if _ then none else some (s.walkOf e)) = some w at hw'
    split at hw'
    · cases hw'
    · cases hw'
      refine ⟨list e List.mem_cons_self, by rintro c ⟨⟩, fun id hid => ?_⟩
      change (if _ then s.faultIdOf e.root else none) = some id at hid
      split at hid
      · obtain ⟨x, hx, hxid⟩ := Option.bind_eq_some_iff.1 hid
        obtain ⟨-, -, -, -, -, -, -, hf⟩ := h.asset hx
        exact hf id hxid
      · cases hid
  · exact h

/-- The walk moves on to the cursor it had found before the visit. -/
theorem State.Ranged.advanceWalk {t : State} (ht : t.Ranged) {w : Walk} (hw : s.walk = some w) {cursor : List Nat}
    (hn : s.walkNext w = some cursor) : (t.advanceWalk w cursor).Ranged := by
  obtain ⟨hroot, -, hrec⟩ := h.walk w hw
  refine { ht with walk := fun w' hw' => ?_ }
  change (if _ then none else some { w with cursor := cursor }) = some w' at hw'
  split at hw'
  · cases hw'
  · cases hw'
    exact ⟨hroot, h.nextCursor_lt hn, hrec⟩

theorem State.Ranged.absorbVisit : s.absorbVisit.Ranged := by
  obtain he | ⟨he, -⟩ | ⟨w, id, cursor, -, hw, -, -, hr, hn, he⟩ := s.absorbVisit_cases
  · rw [he]
    exact h
  · exact he ▸ { h with walk := by rintro w ⟨⟩ }
  · exact he ▸ h.advanceWalk ((faultOps_absorbAt s id _ (State.asset?_ne_none_of_faultIdOf (by simp [hr]))).ranged h) hw hn

theorem State.Ranged.releaseVisit : s.releaseVisit.Ranged := by
  obtain he | ⟨he, -⟩ | ⟨w, cursor, -, hw, -, -, hn, he⟩ := s.releaseVisit_cases
  · rw [he]
    exact h
  · exact he ▸ { h with walk := by rintro w ⟨⟩ }
  · exact he ▸ h.advanceWalk ((faultOps_releaseAt s _ _).ranged h) hw hn

theorem State.Ranged.rebuildVisit {b : Rebuild} {v : Nat} (hm : s.mode = .entering) (hv : s.rebuildNext b.last = some v) :
    ((s.rebuildAt v).setRebuild (some { b with last := some v })).Ranged := by
  have done := (faultOps_rebuildAt s v).ranged h
  refine { done with last := ?_, rebuild := ⟨fun _ => (faultFrame_rebuildAt s v).mode.trans hm, fun _ => nofun⟩ }
  rintro b' ⟨⟩ v' ⟨⟩
  exact h.forest_lt (State.rebuildNext_mem hv)

end

end Sys2Proof.Machine
end

section
/-! PROOFS. Every step keeps every field in its range: the changes of mode and the restarts, and the law itself (O56). -/

namespace Sys2Proof.Machine

/-! ## Lines as a whole -/

theorem State.line_mapLines (s : State) (f : Line → Line) (k : Fin 4) :
    (s.setLines (s.lines.map f)).line k = f (s.line k) := Vector.getElem_map _ k.isLt

/-- Every line changes and keeps serving its stations. -/
theorem State.Ranged.mapLines {s : State} (h : s.Ranged) {f : Line → Line} (hin : ∀ k l, l.InRange k → (f l).InRange k)
    (hserves : ∀ l : Line, l.Serves (f l)) (hidle : ∀ l : Line, l.IdleEmpty s.mode → (f l).IdleEmpty s.mode) :
    (s.setLines (s.lines.map f)).Ranged := by
  refine { h with
    lines := fun k => ?_
    idle := fun k => ?_
    stations := fun e he => (State.outstationInRange_iff _ _ _).2 ⟨(h.station he).1, fun k hk => ?_⟩ }
  · rw [State.line_mapLines]
    exact hin k _ (h.lines k)
  · rw [State.line_mapLines]
    exact hidle _ (h.idle k)
  · rw [State.line_mapLines]
    exact ((h.station he).2 k hk).of_serves (hserves _)

theorem LineCounters.inRange_zero : LineCounters.zero.InRange := by decide

theorem State.Ranged.clearCounters {s : State} (h : s.Ranged) : s.clearCounters.Ranged := by
  obtain ⟨ho, hn1, hn2, ha, -⟩ := h.trunk
  have cleared : (s.setLines (s.lines.map Line.cleared)).Ranged := by
    refine h.mapLines (fun k l hl => ?_) (fun l => Line.serves_of_eq rfl rfl) fun l hl => hl
    obtain ⟨hset, -, hrest⟩ := hl
    exact ⟨hset, LineCounters.inRange_zero, hrest⟩
  exact { cleared with drops := Nat.zero_le _, trunk := ⟨ho, hn1, hn2, ha, Nat.zero_le _⟩ }

theorem Line.atStart_inRange {k : Fin 4} {l : Line} (h : l.InRange k) : l.atStart.InRange k := by
  obtain ⟨hset, hcnt, hql, hq, ht, -, hr⟩ := h
  exact ⟨hset, hcnt, hql, hq, ht, by rintro o ⟨⟩, hr⟩

/-! ## The entry to RUN (R175, R176) -/

theorem State.Ranged.beginEntering {s : State} (h : s.Ranged) (owed : Option ReplyTo) (hm : s.mode = .maintain) :
    (s.beginEntering owed).Ranged := by
  obtain ⟨he, hx, hq1, hq, -, hopens, -, -⟩ := h.storm
  have due : (s.fullDueEverywhere).Ranged := by
    refine h.mapOutstations (fun o x hx => ?_) fun o x k hk hx => ?_
    · obtain ⟨h1, h2, h3, h4⟩ := hx
      exact ⟨h1, h2, h3, h4⟩
    · obtain ⟨h1, h2, h3⟩ := hx
      exact ⟨h1, h2, h3⟩
  have gapped : (s.fullDueEverywhere.gapEveryLoop).Ranged :=
    due.mapAssets (f := fun _ x => x.withGap) fun a x hx => hx.mapWindow fun w hw => hw.gapped
  have zeroed := gapped.mapRecords (f := fun _ r => State.refreshed s.fullDueEverywhere.gapEveryLoop { r with absorbed := 0 })
    fun id r hr => (State.refreshed_tuned _ _).inRange hr
  refine { zeroed with
    idle := fun k _ => h.idle k (.inl (by rw [hm]; nofun))
    walkList := by rintro e ⟨⟩
    walk := by rintro w ⟨⟩
    last := ?_
    rebuild := ⟨fun _ => rfl, fun _ => nofun⟩
    storm := ⟨he, hx, hq1, hq, Nat.zero_le _, hopens, fun _ => rfl, nofun⟩
    records := zeroed.records }
  rintro b ⟨⟩ v ⟨⟩

theorem State.Ranged.enterRun {s : State} (h : s.Ranged) (hm : s.mode = .entering) :
    (((s.setMode .run).setRebuild none).readyLines).Ranged := by
  obtain ⟨he, hx, hq1, hq, hc, hopens, hoff, -⟩ := h.storm
  have ready : (s.readyLines).Ranged := by
    refine h.mapLines (fun k l hl => ?_) (fun l => ?_) fun l hl => ?_
    · split
      · exact hl
      · exact Line.atStart_inRange hl
    · split <;> exact Line.serves_of_eq rfl rfl
    · split <;> exact hl
  exact { ready with
    idle := fun k _ => ready.idle k (.inl (by change s.mode ≠ .run; rw [hm]; nofun))
    last := by rintro b ⟨⟩
    rebuild := ⟨fun hne => absurd rfl hne, nofun⟩
    storm := ⟨he, hx, hq1, hq, hc, hopens, hoff, fun _ => rfl⟩ }

/-! ## The entry to MAINTAIN (R177) -/

/-- Replies change the trunk unit alone. -/
theorem State.foldl_replyAborted (l : List Downlink) (s : State) :
    ∃ u, l.foldl State.replyAborted s = s.setTrunk u ∧ (s.trunk.InRange → u.InRange) := by
  induction l generalizing s with
  | nil => exact ⟨s.trunk, rfl, id⟩
  | cons e l ih =>
    obtain ⟨u, hu, hin⟩ := ih (s.replyAborted e)
    exact ⟨u, hu, fun h => hin (h.place _)⟩

/-- A line that is halted is emptied, its station's retry count set to 0, and replies are placed. -/
theorem State.haltLine_eq (s : State) (k : Fin 4) :
    s.haltLine k = s ∧ (s.line k).settings.personality = .off
      ∨ ∃ x u, s.haltLine k = ((s.adjustLine k fun l => l.emptied.deafened).setOutstations x).setTrunk u
        ∧ (s.trunk.InRange → u.InRange)
        ∧ ((s.line k).transaction = none ∧ x = s.outstations
          ∨ ∃ t ∈ (s.line k).transaction, x = s.outstations.adjust t.outstation fun y => { y with retry := 0 }) := by
  unfold State.haltLine
  dsimp only
  split
  · next hp => exact .inl ⟨rfl, hp⟩
  · right
    cases ht : (s.line k).transaction with
    | none =>
      obtain ⟨u, hu, hin⟩ := State.foldl_replyAborted (s.line k).queue s
      exact ⟨s.outstations, u, by dsimp only; rw [hu]; rfl, hin, .inl ⟨rfl, rfl⟩⟩
    | some t =>
      have dropped : ∃ u, s.dropTransaction t = (s.adjustOutstation t.outstation fun y => { y with retry := 0 }).setTrunk u
          ∧ (s.trunk.InRange → u.InRange) := by
        unfold State.dropTransaction
        dsimp only
        split
        · exact ⟨_, rfl, fun h => h.place _⟩
        · exact ⟨s.trunk, rfl, id⟩
      obtain ⟨v, hv, hvin⟩ := dropped
      obtain ⟨u, hu, hin⟩ := State.foldl_replyAborted (s.line k).queue (s.dropTransaction t)
      refine ⟨_, u, by dsimp only; rw [hu, hv]; rfl, fun h => hin ?_, .inr ⟨t, rfl, rfl⟩⟩
      rw [hv]
      exact hvin h

theorem State.Ranged.haltLine {s : State} (h : s.Ranged) (k : Fin 4) : (s.haltLine k).Ranged := by
  obtain ⟨he, -⟩ | ⟨x, u, he, hu, hx⟩ := s.haltLine_eq k
  · rw [he]
    exact h
  · obtain ⟨hset, hcnt, -, -, -, hpp, -⟩ := h.lines k
    have emptied : ((s.adjustLine k fun l => l.emptied.deafened).setOutstations x).Ranged := by
      refine h.emptyLine rfl ⟨hset, hcnt, Nat.zero_le _, by rintro e ⟨⟩, by rintro t ⟨⟩, hpp, Nat.zero_le _⟩
        (fun _ => ⟨rfl, rfl, rfl⟩) ?_
      obtain ⟨hnone, rfl⟩ | ⟨t, ht, rfl⟩ := hx
      · intro e he
        obtain ⟨hsane, hfits⟩ := h.station he
        refine ⟨hsane, fun j hj => ⟨hfits j hj, ?_⟩⟩
        rintro rfl
        refine (hfits j hj).retry_eq_zero ?_
        rw [hnone]
        rintro t ⟨⟩
      · intro e he
        rcases Table.mem_adjust he with ⟨he, hne⟩ | ⟨y, hy, rfl⟩
        · obtain ⟨hsane, hfits⟩ := h.station he
          refine ⟨hsane, fun j hj => ⟨hfits j hj, ?_⟩⟩
          rintro rfl
          refine (hfits j hj).retry_eq_zero fun t' ht' _ ho => hne ?_
          rw [← ho, Option.some.inj (ht'.symm.trans ht)]
        · obtain ⟨⟨h1, h2, h3, h4⟩, hfits⟩ := h.station hy
          exact ⟨⟨h1, h2, h3, h4⟩, fun j hj =>
            ⟨⟨(hfits j hj).countdown, Nat.zero_le _, fun hne => absurd rfl hne⟩, fun _ => rfl⟩⟩
    rw [he]
    exact { emptied with trunk := hu emptied.trunk }

/-- The lines are emptied in whatever mode. -/
theorem State.haltLine_setMode (s : State) (m : Mode) (k : Fin 4) : (s.setMode m).haltLine k = (s.haltLine k).setMode m := by
  have aborted (l : List Downlink) (t : State) :
      l.foldl State.replyAborted (t.setMode m) = (l.foldl State.replyAborted t).setMode m := by
    induction l generalizing t with
    | nil => rfl
    | cons e l ih => exact ih (t.replyAborted e)
  have dropped (t : Transaction) : (s.setMode m).dropTransaction t = (s.dropTransaction t).setMode m := by
    unfold State.dropTransaction
    dsimp only
    split <;> rfl
  unfold State.haltLine
  dsimp only [State.setMode_line_eq]
  split
  · rfl
  · split
    · rw [dropped, aborted]
      rfl
    · rw [aborted]
      rfl

/-- A line stands halted: OFF, or with no work in hand and no bytes. -/
def Line.Halted (l : Line) : Prop := l.transaction = none ∧ l.queue = [] ∧ l.received = []

theorem State.haltLine_line {s : State} (h : s.Ranged) (k j : Fin 4) :
    ((s.haltLine k).line j).Halted ∨ j ≠ k ∧ (s.haltLine k).line j = s.line j := by
  obtain ⟨he, hp⟩ | ⟨x, u, he, -, -⟩ := s.haltLine_eq k
  · by_cases hj : j = k
    · subst hj
      rw [he]
      exact .inl (h.idle j (.inr hp))
    · exact .inr ⟨hj, by rw [he]⟩
  · rw [he]
    change (((s.adjustLine k fun l => l.emptied.deafened).line j).Halted)
      ∨ j ≠ k ∧ (s.adjustLine k fun l => l.emptied.deafened).line j = s.line j
    by_cases hj : j = k
    · subst hj
      rw [State.adjustLine_line_self]
      exact .inl ⟨rfl, rfl, rfl⟩
    · exact .inr ⟨hj, State.adjustLine_line_of_ne s hj _⟩

theorem State.haltLine_halted {s : State} (h : s.Ranged) (k : Fin 4) {j : Fin 4} (hj : (s.line j).Halted ∨ j = k) :
    ((s.haltLine k).line j).Halted := by
  rcases State.haltLine_line h k j with hh | ⟨hne, he⟩
  · exact hh
  · rw [he]
    exact hj.resolve_right hne

theorem State.haltLine_mode (s : State) (k : Fin 4) : (s.haltLine k).mode = s.mode := by
  obtain ⟨he, -⟩ | ⟨x, u, he, -, -⟩ := s.haltLine_eq k <;> rw [he]
  rfl

theorem State.Ranged.leaveRun {s : State} (h : s.Ranged) (hm : s.mode = .run) :
    ((((((s.setMode .maintain).haltLine 0).haltLine 1).haltLine 2).haltLine 3).endStorm).Ranged := by
  simp only [State.haltLine_setMode]
  have h0 := h.haltLine 0
  have h1 := h0.haltLine 1
  have h2 := h1.haltLine 2
  have h3 := h2.haltLine 3
  have halted (j : Fin 4) : (((((s.haltLine 0).haltLine 1).haltLine 2).haltLine 3).line j).Halted := by
    refine State.haltLine_halted h2 3 ?_
    by_cases hj3 : j = 3
    · exact .inr hj3
    · refine .inl (State.haltLine_halted h1 2 ?_)
      by_cases hj2 : j = 2
      · exact .inr hj2
      · refine .inl (State.haltLine_halted h0 1 ?_)
        by_cases hj1 : j = 1
        · exact .inr hj1
        · refine .inl (State.haltLine_halted h 0 (.inr ?_))
          omega
  have hmode : ((((s.haltLine 0).haltLine 1).haltLine 2).haltLine 3).mode = .run := by
    simp only [State.haltLine_mode, hm]
  generalize (((s.haltLine 0).haltLine 1).haltLine 2).haltLine 3 = u at h3 halted hmode
  obtain ⟨he, hx, hq1, hq, -⟩ := h3.storm
  have left : ((u.setMode .maintain).setStorm { u.storm with on := false, calm := 0, opens := 0 }).Ranged :=
    { h3 with
      idle := fun k _ => halted k
      rebuild := ⟨fun hne => absurd (hmode.symm.trans (h3.rebuild.1 hne)) nofun, nofun⟩
      storm := ⟨he, hx, hq1, hq, Nat.zero_le _, Nat.zero_le _, fun _ => rfl, nofun⟩ }
  unfold State.endStorm
  dsimp only
  split
  · exact { left with trunk := left.trunk.place _ }
  · exact left

/-! ## Restarts (R178, R179) -/

theorem Trunk.InRange.restarted {t : Trunk} (h : t.InRange) : t.restarted.InRange := by
  obtain ⟨-, hn1, hn2, ha, -⟩ := h
  refine ⟨?_, hn1, hn2, ha, Nat.zero_le _⟩
  unfold Trunk.restarted Trunk.occupancy
  cases t.sending <;> exact Nat.zero_le _

theorem Asset.InRange.restarted {x : Asset} (h : x.InRange) : x.restarted.InRange := by
  obtain ⟨hw1, hw2, hp, hl, -, -, -, -⟩ := h
  refine ⟨hw1, hw2, hp, hl, ?_, fun w hw => ?_, by rintro z ⟨⟩, by rintro id ⟨⟩⟩
  · unfold Asset.restarted
    dsimp only
    split <;> simp [*]
  · unfold Asset.restarted at hw
    dsimp only at hw
    split at hw
    · cases hw
      exact ⟨Nat.zero_le _, by rintro n ⟨⟩⟩
    · cases hw

theorem Line.restarted_inRange {k : Fin 4} {l : Line} (h : l.InRange k) : l.restarted.InRange k := by
  obtain ⟨hset, -, -, -, -, -, hr⟩ := h
  exact ⟨hset, LineCounters.inRange_zero, Nat.zero_le _, by rintro e ⟨⟩, by rintro t ⟨⟩, by rintro o ⟨⟩, hr⟩

theorem State.Ranged.restartRuntime {s : State} (h : s.Ranged) : s.restartRuntime.Ranged := by
  obtain ⟨he, hx, hq1, hq, -⟩ := h.storm
  have run_of {m : Mode} (hm : m = if s.mode = .run then .run else .maintain) : m ≠ .run → s.mode ≠ .run := by
    rintro hne hrun
    rw [if_pos hrun] at hm
    exact hne hm
  exact
    { time := h.time
      owed := List.nodup_nil
      trunk := (h.trunk.restarted).place _
      lines := fun k => by
        change ((s.setLines (s.lines.map Line.restarted)).line k).InRange k
        rw [State.line_mapLines]
        exact Line.restarted_inRange (h.lines k)
      idle := fun k hk => by
        change ((s.setLines (s.lines.map Line.restarted)).line k).Halted
        replace hk : (if s.mode = .run then Mode.run else .maintain) ≠ .run
          ∨ ((s.setLines (s.lines.map Line.restarted)).line k).settings.personality = .off := hk
        rw [State.line_mapLines] at hk ⊢
        obtain ⟨-, -, hr⟩ := h.idle k (hk.imp_left (run_of rfl))
        exact ⟨rfl, rfl, hr⟩
      stations := fun e he => by
        obtain ⟨e, hmem, rfl⟩ := List.mem_map.1 he
        obtain ⟨⟨h1, h2, h3, -⟩, -⟩ := h.station hmem
        exact (State.outstationInRange_iff _ _ _).2 ⟨⟨h1, h2, h3, by rintro n ⟨⟩⟩,
          fun k hk => ⟨Nat.zero_le _, Nat.zero_le _, fun hne => absurd rfl hne⟩⟩
      faultProfiles := h.faultProfiles
      loopProfiles := h.loopProfiles
      walkList := by rintro e ⟨⟩
      walk := by rintro w ⟨⟩
      last := by rintro b ⟨⟩
      rebuild := ⟨fun hne => absurd rfl hne, fun hent => by
        change (if s.mode = .run then Mode.run else .maintain) = .entering at hent
        split at hent <;> cases hent⟩
      storm := ⟨he, hx, hq1, hq, Nat.zero_le _, Nat.zero_le _, fun _ => rfl, nofun⟩
      beacons := fun b => by
        obtain ⟨harg, -⟩ := h.beacons b
        unfold State.beacon
        refine (congrArg Beacon.InRange (Vector.getElem_map _ b.isLt)).mpr ?_
        exact Beacon.startAfresh_inRange harg _
      drops := Nat.zero_le _
      nextId := ⟨le_refl 1, Nat.le_add_left 1 65534⟩
      assets := fun e he => by
        obtain ⟨e, hmem, rfl⟩ := List.mem_map.1 he
        exact ⟨(h.assets e hmem).1, (h.assets e hmem).2.restarted⟩
      points := fun e he => by
        obtain ⟨e, hmem, rfl⟩ := List.mem_map.1 he
        obtain ⟨hk, hp⟩ := h.points e (List.mem_filter.1 hmem).1
        exact ⟨hk, hp.silenced⟩
      records := by rintro e ⟨⟩
      waiting := by rintro a ⟨⟩ }

theorem State.ranged_reset : State.reset.Ranged where
  time := by decide
  owed := List.nodup_nil
  trunk := by decide
  lines := by decide
  idle := by decide
  stations := by rintro e ⟨⟩
  faultProfiles := by decide
  loopProfiles := by decide
  walkList := by rintro e ⟨⟩
  walk := by rintro w ⟨⟩
  last := by rintro b ⟨⟩
  rebuild := by decide
  storm := by decide
  beacons := by decide
  drops := by decide
  nextId := by decide
  assets := by rintro e ⟨⟩
  points := by rintro e ⟨⟩
  records := by rintro e ⟨⟩
  waiting := by rintro a ⟨⟩

theorem State.Ranged.restartFull {s : State} (h : s.Ranged) : s.restartFull.Ranged :=
  { State.ranged_reset with trunk := (h.trunk.restarted).place _ }

theorem State.ranged_powerOn (s : State) :
    State.Ranged { State.reset with freeCount := s.freeCount, pending := s.pending } := { State.ranged_reset with }

/-! ## The law -/

theorem Move.ranged {s t : State} (ht : Move s t) (hc : s.Canonical) (h : s.Ranged) : t.Ranged := by
  cases ht with
  | place f => exact { h with trunk := h.trunk.place f }
  | readdress hn ha =>
    obtain ⟨ho, -, -, -, hcf⟩ := h.trunk
    exact { h with trunk := ⟨ho, hn.1, hn.2, ha, hcf⟩ }
  | checkFail =>
    obtain ⟨ho, hn1, hn2, ha, -⟩ := h.trunk
    exact { h with trunk := ⟨ho, hn1, hn2, ha, bump_le _⟩ }
  | transmit => exact { h with trunk := h.trunk.begun _ }
  | hush => exact { h with trunk := h.trunk.hushed }
  | clearCounters => exact h.clearCounters
  | hold => exact { h with }
  | clock hx => exact { h with time := hx h.time }
  | hand hx => exact { h with owed := hx h.owed }
  | draw n => exact { h with }
  | settle => exact h.settleBeacons
  | beacon b hf =>
    refine { h with beacons := fun c => ?_ }
    rw [State.beacon_adjustBeacon]
    split
    · exact hf (h.beacons b)
    · exact h.beacons c
  | storm hm => exact { h with storm := hm h.storm }
  | lineSettings k hm hn => exact h.lineSettings k hm hn
  | outstationLoad ho hcfg hl hm ht => exact h.outstationLoad ho hcfg hl
  | outstationErase o hm => exact h.outstationErase o
  | resync o => exact h.resync o
  | lineSecond k => exact h.lineSecond k
  | count k hf => exact h.countOn k hf
  | receive k hr hb => exact h.receive hr hb
  | enqueue k he hq hp hm => exact h.enqueue he hq hp hm
  | pollAt k ho => exact h.pollAt ho
  | countdown k ho hx hn => exact h.setCountdown hc ho hx hn
  | beginSweep k hf hk ho => exact h.beginSweep hf hk ho
  | beginOrder k hf hq => exact h.beginOrder hf hq
  | startTimer k ht => exact h.startTimer ht
  | resend k ht hk hr => exact h.resend hc ht hk hr
  | drop k ht hd => exact h.drop hc ht hd
  | fail k ht hx hp hcfg hr hh hn => exact h.fail hc ht hx hp hcfg hr hh hn
  | hear k hx ho => exact h.hear hc hx ho
  | putPoint hp => exact h.putPoint hp
  | erasePoint key => exact { h with points := fun e he => h.points e (List.mem_filter.1 he).1 }
  | silence o => exact h.silence o
  | dropped => exact { h with drops := bump_le _ }
  | windows hg => exact h.mapAssets fun a x hx => hx.mapWindow (hg a x)
  | window hx hg => exact h.putAsset (h.asset_lt (by rw [hx]; nofun)) ((h.asset hx).mapWindow hg)
  | loopProfile p hn => exact h.setLoopProfile p hn
  | faultProfile p hm hn => exact h.storeFaultProfile p hn
  | storeAsset ha hcfg hm hp he hx => exact h.storeAsset ha hcfg
  | eraseAsset hx hm he => exact { h with assets := fun e he => h.assets e (List.mem_filter.1 he).1 }
  | sample hm => exact (faultOps_sample s _).ranged h
  | escalate hm =>
    rw [State.escalateAll, if_pos hm]
    exact h.mapRecords fun _ _ => h.escalated
  | unflag id => exact h.adjustRecord id fun r hr => hr
  | acknowledge id hcons =>
    refine h.adjustRecord id fun r hr => ?_
    obtain ⟨ha, hor, hod, hs, hm, hu, -, -⟩ := hr
    exact ⟨ha, hor, hod, hs, hm, hu, fun c hc => Option.some.inj hc ▸ hcons, by simp⟩
  | close hm hr => exact (faultOps_close s _ _).ranged h
  | beginWalk => exact h.beginWalk
  | absorbVisit => exact h.absorbVisit
  | releaseVisit => exact h.releaseVisit
  | rebuildVisit hm hb hv => exact h.rebuildVisit hm hv
  | beginEntering owed hm => exact h.beginEntering owed hm
  | enterRun hm hb hv => exact h.enterRun hm
  | leaveRun hm => exact h.leaveRun hm
  | restartRuntime => exact h.restartRuntime
  | restartFull => exact h.restartFull
  | powerOn => exact s.ranged_powerOn

/-- The law of ranges, with the canonical form it is read by. -/
theorem law_ranged : Law fun s => s.Canonical ∧ s.Ranged :=
  ⟨fun ht h => ⟨ht.canonical h.1, ht.ranged h.1 h.2⟩, fun _ h => ⟨h.1, { h.2 with }⟩⟩

/-- Settles O56: every move keeps every field within its range, and a step is a run of moves. -/
theorem rangesKept : Obligations.RangesKept := by
  intro s t hc h ht
  exact (State.ranged_iff t).1 (law_ranged.step ⟨hc, (State.ranged_iff s).2 h⟩ ht).2

end Sys2Proof.Machine
end

section
/-! PROOFS. The fault table's requests, each with its whole effect (R99 to R113, R120, R135): the state they lead to, written
out, and with it what every law reads of them. -/

namespace Sys2Proof.Machine

/-! ## The fault ID of a new record (R100) -/

/-- The IDs from one on are met in a circle of 65535. -/
theorem iterate_nextFaultId {c : Nat} (h : 1 ≤ c ∧ c ≤ 65535) (j : Nat) : nextFaultId^[j] c = (c - 1 + j) % 65535 + 1 := by
  induction j with
  | zero =>
    rw [Function.iterate_zero_apply]
    omega
  | succ j ih =>
    rw [Function.iterate_succ_apply', ih]
    unfold nextFaultId
    split <;> omega

/-- The search passes over IDs in use, and ends at one that is free or at the end of its fuel. -/
theorem freeIdFrom_spec (records : Table FaultRecord) (fuel c : Nat) :
    ∃ passed ≤ fuel, freeIdFrom records fuel c = nextFaultId^[passed] c
      ∧ (∀ j < passed, records.has (nextFaultId^[j] c) = true)
      ∧ (passed = fuel ∨ records.has (nextFaultId^[passed] c) = false) := by
  induction fuel generalizing c with
  | zero => exact ⟨0, le_refl _, rfl, by omega, .inl rfl⟩
  | succ f ih =>
    unfold freeIdFrom
    split
    · next hc =>
      obtain ⟨p, hp, heq, hused, hfree⟩ := ih (nextFaultId c)
      refine ⟨p + 1, by omega, heq, fun j hj => ?_, hfree.imp_left fun h => by rw [h]⟩
      cases j with
      | zero => exact hc
      | succ j => exact hused j (by omega)
    · next hc => exact ⟨0, by omega, rfl, by omega, .inr (by simpa using hc)⟩

theorem Table.has_iff {α : Type} (t : Table α) (k : Nat) : t.has k = true ↔ t.get? k ≠ none := by
  rw [Table.has, Option.isSome_iff_ne_none]

/-- Among as many IDs as there are records and one more, one is free. -/
theorem has_nextFaultId_eq_false {records : Table FaultRecord} (hw : records.wf = true) (hl : records.length < 65535) {c : Nat}
    (h : 1 ≤ c ∧ c ≤ 65535) (hused : ∀ j < records.length, records.has (nextFaultId^[j] c) = true) :
    records.has (nextFaultId^[records.length] c) = false := by
  by_contra hlast
  have used (j : Nat) (hj : j < records.length + 1) : records.has (nextFaultId^[j] c) = true := by
    rcases Nat.lt_succ_iff_lt_or_eq.1 hj with hj | rfl
    · exact hused j hj
    · simpa using hlast
  have distinct : ((List.range (records.length + 1)).map fun j => nextFaultId^[j] c).Nodup := by
    refine List.Nodup.map_on (fun i hi j hj he => ?_) List.nodup_range
    rw [List.mem_range] at hi hj
    rw [iterate_nextFaultId h, iterate_nextFaultId h] at he
    omega
  have inside : ((List.range (records.length + 1)).map fun j => nextFaultId^[j] c) ⊆ records.map Prod.fst := by
    intro i hi
    obtain ⟨j, hj, rfl⟩ := List.mem_map.1 hi
    exact (Table.has_iff_mem_keys hw).1 ((Table.has_iff _ _).1 (used j (List.mem_range.1 hj)))
  have := (distinct.subperm inside).length_le
  simp only [List.length_map, List.length_range] at this
  omega

/-- The ID of a new record is the first from next-ID on that no record holds (R100). -/
theorem State.freeId_spec {s : State} (hw : s.records.wf = true) (hl : s.records.length < Config.recordCapacity)
    (hn : 1 ≤ s.nextId ∧ s.nextId ≤ 65535) :
    ∃ passed ≤ s.records.length, s.freeId = nextFaultId^[passed] s.nextId
      ∧ (∀ j < passed, s.records.has (nextFaultId^[j] s.nextId) = true)
      ∧ s.records.has (nextFaultId^[passed] s.nextId) = false := by
  obtain ⟨p, hp, heq, hused, hfree⟩ := freeIdFrom_spec s.records s.records.length s.nextId
  refine ⟨p, hp, heq, hused, hfree.elim ?_ id⟩
  rintro rfl
  exact has_nextFaultId_eq_false hw (by unfold Config.recordCapacity at hl; omega) hn hused

theorem State.freeId_fresh {s : State} (hw : s.records.wf = true) (hl : s.records.length < Config.recordCapacity)
    (hn : 1 ≤ s.nextId ∧ s.nextId ≤ 65535) : s.records.get? s.freeId = none := by
  obtain ⟨p, -, heq, -, hfree⟩ := State.freeId_spec hw hl hn
  rw [heq]
  by_contra hne
  rw [(Table.has_iff _ _).2 hne] at hfree
  cases hfree

/-! ## Raises one after another (R106, R135) -/

theorem urgencyOf_mono (p : FaultProfile) (severity : Severity) (weight steps : Nat) {m n : Nat} (h : m ≤ n) :
    urgencyOf p severity weight m steps ≤ urgencyOf p severity weight n steps := by
  unfold urgencyOf
  gcongr

/-- The record of a new fault after `n` raises: U is that of n, and change-due is set when it differs from U at creation. -/
def State.raisedRecord (s : State) (a : Nat) (x : Asset) (severity : Severity) (n : Nat) : FaultRecord :=
  let u (n : Nat) : Nat := urgencyOf (s.faultProfile x.config.faultProfile) severity x.config.weight n 0
  { s.newRecord a x severity with absorbed := n, urgency := u n, changeDue := u n ≠ u 0 }

theorem State.raisedRecord_zero (s : State) (a : Nat) (x : Asset) (severity : Severity) :
    s.raisedRecord a x severity 0 = s.newRecord a x severity := by simp [State.raisedRecord, State.newRecord]

theorem State.raisedRecord_succ {s t : State} {a : Nat} {x y : Asset} (severity : Severity) (n : Nat)
    (hy : t.asset? a = some y) (hc : y.config = x.config) (hp : t.faultProfiles = s.faultProfiles) :
    t.refreshed { s.raisedRecord a x severity n with absorbed := n + 1 } = s.raisedRecord a x severity (n + 1) := by
  have mono := urgencyOf_mono (s.faultProfile x.config.faultProfile) severity x.config.weight 0 (Nat.le_add_right n 1)
  have mono0 := urgencyOf_mono (s.faultProfile x.config.faultProfile) severity x.config.weight 0 (Nat.zero_le n)
  have hprof (q : Fin 16) : t.faultProfile q = s.faultProfile q := by rw [State.faultProfile, hp]; rfl
  simp only [State.refreshed, State.raisedRecord, State.newRecord, hy, hc, hprof]
  split
  · next heq => simp [heq]
  · next hne =>
    simp only [FaultRecord.mk.injEq, true_and]
    rw [eq_comm, decide_eq_true_eq]
    omega

/-- Raises change the record an asset holds, and no other field. -/
theorem State.raiseOn_eq {s : State} {a id : Nat} (h : s.faultIdOf a = some id) :
    s.raiseOn a = s.adjustRecord id fun r => s.refreshed { r with absorbed := r.absorbed + 1 } := by
  rw [State.raiseOn, State.onRecordOf, h]

theorem Table.put_adjust {α : Type} {t : Table α} (h : t.wf = true) (k : Nat) (x : α) (f : α → α) :
    (t.put k x).adjust k f = t.put k (f x) := by
  have rest (e : Nat × α) (l : Table α) (he : k < e.1 ∨ k = e.1) (hl : ∀ e' ∈ l, e.1 < e'.1) :
      Table.adjust l k f = l := by
    refine List.map_congr_left (g := id) (fun e' he' => ?_) |>.trans (List.map_id l)
    have := hl e' he'
    rw [if_neg (by omega)]
    rfl
  induction t with
  | nil => simp [Table.put, Table.adjust]
  | cons e l ih =>
    rw [Table.wf_iff, List.map_cons, List.pairwise_cons] at h
    have above : ∀ e' ∈ l, e.1 < e'.1 := fun e' he' => h.1 e'.1 (List.mem_map_of_mem he')
    simp only [Table.put]
    split
    · next hlt =>
      have := rest e l (.inl hlt) above
      simp only [Table.adjust, List.map_cons, if_true] at this ⊢
      rw [if_neg (by omega), this]
    · split
      · next heq =>
        have := rest e l (.inr heq) above
        simp only [Table.adjust, List.map_cons, if_true] at this ⊢
        rw [this]
      · next hne =>
        have := ih ((Table.wf_iff l).2 h.2)
        simp only [Table.adjust, List.map_cons] at this ⊢
        rw [if_neg (Ne.symm hne), this]

/-- The raises at a creation, one for each descendant counted. -/
theorem State.foldl_raiseOn {s t : State} {a id : Nat} {x y : Asset} {severity : Severity} (l : List Nat) (m : Nat)
    (hw : s.records.wf = true) (hid : t.faultIdOf a = some id) (hy : t.asset? a = some y) (hc : y.config = x.config)
    (hp : t.faultProfiles = s.faultProfiles) (hr : t.records = s.records.put id (s.raisedRecord a x severity m)) :
    l.foldl (fun t _ => t.raiseOn a) t
      = t.setRecords (s.records.put id (s.raisedRecord a x severity (m + l.length))) := by
  induction l generalizing t m with
  | nil => rw [List.foldl_nil, List.length_nil, Nat.add_zero, ← hr]; rfl
  | cons d l ih =>
    have raised : t.raiseOn a = t.setRecords (s.records.put id (s.raisedRecord a x severity (m + 1))) := by
      rw [State.raiseOn_eq hid, State.adjustRecord, hr, Table.put_adjust hw,
        ← State.raisedRecord_succ severity m hy hc hp]
      rfl
    rw [List.foldl_cons, raised, ih (t := t.setRecords (s.records.put id (s.raisedRecord a x severity (m + 1)))) (m + 1) hid hy hp rfl, List.length_cons]
    rw [show m + 1 + l.length = m + (l.length + 1) by omega]
    rfl

/-! ## Creation (R99 to R103) -/

/-- The descendants a new record of an asset counts at once (R135): none in the rebuild. -/
def State.countedAtCreation (s : State) (a : Nat) : Nat :=
  if s.mode = .entering ∨ s.childrenOf a = [] then 0
  else ((s.descendantsOf a).filter fun d =>
    ((s.asset? d).map fun y => decide (y.health ≠ .healthy ∧ y.absorbedBy = some a)) = some true).length

theorem State.hasChild_eq_false (s : State) (a : Nat) : s.hasChild a = false ↔ s.childrenOf a = [] := by
  simp [State.hasChild]

theorem State.asset?_adjustAsset (s : State) (a b : Nat) (f : Asset → Asset) :
    (s.adjustAsset a f).asset? b = if b = a then (s.asset? b).map f else s.asset? b := by
  rw [State.adjustAsset, State.asset?, State.setAssets_assets, Table.get?_adjust]
  rfl

section
variable (s : State) (a : Nat) (r : FaultRecord)

theorem State.storeRecord_asset? (d : Nat) : (s.storeRecord a r).asset? d
    = if d = a then (s.asset? d).map fun x => { x with faultId := some s.freeId } else s.asset? d :=
  s.asset?_adjustAsset a d fun x => { x with faultId := some s.freeId }

theorem State.storeRecord_tree : (s.storeRecord a r).tree = s.tree :=
  s.tree_adjustAsset a (f := fun x => { x with faultId := some s.freeId }) fun _ => rfl

theorem State.storeRecord_mode : (s.storeRecord a r).mode = s.mode := rfl

theorem State.faultyNaming_storeRecord :
    ((s.storeRecord a r).faultyNaming a).length = ((s.descendantsOf a).filter fun d =>
      ((s.asset? d).map fun y => decide (y.health ≠ .healthy ∧ y.absorbedBy = some a)) = some true).length := by
  rw [State.faultyNaming, State.descendantsOf_of_tree (s.storeRecord_tree a r)]
  congr 1
  refine List.filter_congr fun d _ => ?_
  simp only [State.storeRecord_asset?]
  cases s.asset? d with
  | none => split <;> simp_all
  | some y => by_cases hd : d = a <;> simp [hd]

end

/-- A record stored, whole (R103, steps 1 to 4). -/
theorem State.storeRecord_whole (s : State) (a : Nat) (r : FaultRecord) : s.storeRecord a r = { s with
    records := s.records.put s.freeId r, nextId := nextFaultId s.freeId,
    assets := s.assets.adjust a fun x => { x with faultId := some s.freeId },
    storm := { s.storm with opens := bump s.storm.opens },
    trunk := s.trunk.place ⟨s.trunk.node, .notice (.opened (r.summary s.freeId))⟩ } := by
  simp only [State.storeRecord, State.countOpen, State.notify, State.adjustAsset, State.setNextId, State.setStorm,
    State.setTrunk, State.setAssets, State.setRecords]

/-- A record created, whole (R103, R135). -/
theorem State.createRecord_eq {s : State} (hw : s.records.wf = true) {a : Nat} {x : Asset} {severity : Severity}
    (hx : s.asset? a = some x) (hf : x.health = .faulty severity) :
    s.createRecord a = { s with
      records := s.records.put s.freeId (s.raisedRecord a x severity (s.countedAtCreation a)),
      nextId := nextFaultId s.freeId,
      assets := s.assets.adjust a fun x => { x with faultId := some s.freeId },
      storm := { s.storm with opens := bump s.storm.opens },
      trunk := s.trunk.place ⟨s.trunk.node, .notice (.opened ((s.newRecord a x severity).summary s.freeId))⟩,
      walkList := if s.childrenOf a = [] then s.walkList else queueEntry s.walkList a .absorb } := by
  have hnew := s.raisedRecord_zero a x severity
  have created : s.createRecord a = if s.hasChild a
      then ((s.storeRecord a (s.newRecord a x severity)).countAtCreation a).queueWalk a .absorb
      else s.storeRecord a (s.newRecord a x severity) := by
    unfold State.createRecord
    rw [hx]
    dsimp only
    rw [hf]
    dsimp only
    rw [State.hasChild_of_tree (s.storeRecord_tree a _)]
  rw [created]
  cases hchild : s.hasChild a with
  | false =>
    rw [State.hasChild_eq_false] at hchild
    have none_counted : s.countedAtCreation a = 0 := if_pos (.inr hchild)
    rw [none_counted, hnew, if_pos hchild, State.storeRecord_whole]
    rfl
  | true =>
    have hne : s.childrenOf a ≠ [] := fun hnil => by
      rw [(s.hasChild_eq_false a).2 hnil] at hchild
      cases hchild
    rw [if_pos rfl, if_neg hne, State.countAtCreation, State.storeRecord_mode]
    split
    · next hm =>
      have none_counted : s.countedAtCreation a = 0 := if_pos (.inl hm)
      rw [none_counted, hnew, State.storeRecord_whole]
      rfl
    · next hm =>
      have hasset := s.storeRecord_asset? a (s.newRecord a x severity) a
      rw [if_pos rfl, hx, Option.map_some] at hasset
      have hid : (s.storeRecord a (s.newRecord a x severity)).faultIdOf a = some s.freeId := by
        rw [State.faultIdOf, hasset]
        rfl
      have counted : s.countedAtCreation a = ((s.storeRecord a (s.newRecord a x severity)).faultyNaming a).length := by
        rw [State.faultyNaming_storeRecord]
        exact if_neg (not_or.2 ⟨hm, hne⟩)
      have hrecords : (s.storeRecord a (s.newRecord a x severity)).records
          = s.records.put s.freeId (s.raisedRecord a x severity 0) := by rw [hnew]; rfl
      rw [State.foldl_raiseOn _ 0 hw hid hasset rfl rfl hrecords, Nat.zero_add, ← counted, State.storeRecord_whole]
      rfl

/-- Settles O53: the head of the waiting list is served by definition, and a creation is `State.createRecord_eq`. -/
theorem recordCreation : Obligations.RecordCreation := by
  refine ⟨fun s => ⟨fun hw => by rw [State.serveWaiting, hw], fun b rest hw => by rw [State.serveWaiting, hw]; rfl⟩, ?_⟩
  intro s a x severity hc hn1 hn2 hl hx hf
  have hw := hc.2.2.2
  obtain ⟨p, hp, heq, hused, hfree⟩ := State.freeId_spec hw hl ⟨hn1, hn2⟩
  have range := State.freeId_range (s := s) ⟨hn1, hn2⟩
  rw [heq] at range
  refine ⟨p, hp, hused, hfree, range.1, range.2, ?_⟩
  rw [State.createRecord_eq hw hx hf, heq]
  rfl

/-! ## Requests (R104 to R109) -/

/-- An adjust of an entry that is there is a put. -/
theorem Table.adjust_eq_put {α : Type} {t : Table α} (h : t.wf = true) {k : Nat} {x : α} (hx : t.get? k = some x)
    (f : α → α) : t.adjust k f = t.put k (f x) := by
  have self : t.put k x = t := by
    induction t with
    | nil => simp at hx
    | cons e l ih =>
      rw [Table.wf_iff, List.map_cons, List.pairwise_cons] at h
      rw [Table.get?_cons] at hx
      simp only [Table.put]
      split at hx
      · next he =>
        cases hx
        rw [if_neg (by omega), if_pos he.symm, ← he]
      · next he =>
        have := h.1 k (List.mem_map.2 ⟨_, Table.mem_of_get? hx, rfl⟩)
        rw [if_neg (by omega), if_neg (Ne.symm he), ih ((Table.wf_iff l).2 h.2) hx]
  rw [← Table.put_adjust h, self]

theorem State.onRecordOf_of_none {s : State} {a : Nat} (h : s.faultIdOf a = none) (f : FaultRecord → FaultRecord) :
    s.onRecordOf a f = s := by rw [State.onRecordOf, h]

theorem State.onRecordOf_eq {s : State} (hw : s.records.wf = true) {a id : Nat} {r : FaultRecord}
    (hid : s.faultIdOf a = some id) (hr : s.records.get? id = some r) (f : FaultRecord → FaultRecord) :
    s.onRecordOf a f = { s with records := s.records.put id (f r) } := by
  rw [State.onRecordOf, hid, ← Table.adjust_eq_put hw hr]
  rfl

/-- A refreshed record, its U under the asset it names (R145). -/
theorem State.refreshed_eq {s : State} {r : FaultRecord} {x : Asset} (hx : s.asset? r.asset = some x) :
    s.refreshed r = { r with
      urgency := urgencyOf (s.faultProfile x.config.faultProfile) r.severity x.config.weight r.absorbed r.steps,
      changeDue := r.changeDue
        || urgencyOf (s.faultProfile x.config.faultProfile) r.severity x.config.weight r.absorbed r.steps ≠ r.urgency } := by
  rw [State.refreshed, hx]
  dsimp only
  split
  · next he => simp [he]
  · next hne => simp [hne]

theorem State.clearRecord_eq (s : State) (id a : Nat) (manual : Bool) : s.clearRecord id a manual = ({ s with
    records := s.records.del id,
    assets := s.assets.adjust a fun x => { x with faultId := none },
    trunk := s.trunk.place ⟨s.trunk.node, .notice (.cleared id a manual)⟩,
    walkList := if s.childrenOf a = [] then s.walkList else queueEntry s.walkList a .release } : State).serveWaiting := by
  have tree : ((s.discardRecord id a).notify (.cleared id a manual)).tree = s.tree :=
    s.tree_adjustAsset a (f := fun x => { x with faultId := none }) fun _ => rfl
  unfold State.clearRecord
  dsimp only
  rw [State.hasChild_of_tree tree]
  cases hchild : s.hasChild a with
  | false =>
    rw [if_pos ((s.hasChild_eq_false a).1 hchild)]
    rfl
  | true =>
    rw [if_neg fun hnil : s.childrenOf a = [] => by rw [(s.hasChild_eq_false a).2 hnil] at hchild; cases hchild]
    rfl

/-- Settles O54: each request by the branch its asset leads to. -/
theorem faultRequests : Obligations.FaultRequests := by
  intro s a x hc hx
  have hid : s.faultIdOf a = x.faultId := by rw [State.faultIdOf, hx]; rfl
  refine ⟨fun z hz => ?_, fun hz hl => ?_, fun hz hl => ?_, fun id hf => ?_, fun z hf hz => ?_, fun hf hz => ?_,
    fun hf => ?_, fun id r hf hr ha => ?_⟩
  · rw [State.openFault, hx]
    dsimp only
    rw [hz]
  · rw [State.openFault, hx]
    dsimp only
    rw [hz]
    exact if_pos hl
  · rw [State.openFault, hx]
    dsimp only
    rw [hz]
    exact if_neg (Nat.not_lt.2 hl)
  · rw [State.becameHealthy, hx]
    dsimp only
    rw [hf]
    exact s.clearRecord_eq id a false
  · rw [State.becameHealthy, hx]
    dsimp only
    rw [hf, hz]
  · rw [State.becameHealthy, hx]
    dsimp only
    rw [hf, hz]
    rfl
  · rw [hf] at hid
    exact ⟨State.onRecordOf_of_none hid _, State.onRecordOf_of_none hid _, State.onRecordOf_of_none hid _⟩
  · rw [hf] at hid
    have hasset : s.asset? r.asset = some x := ha ▸ hx
    refine ⟨?_, ?_, ?_⟩
    · rw [State.raiseOn, State.onRecordOf_eq hc.2.2.2 hid hr, State.refreshed_eq (by exact hasset)]
    · rw [State.lowerOn, State.onRecordOf_eq hc.2.2.2 hid hr, State.refreshed_eq (by exact hasset)]
    · rw [State.severityRaised, State.onRecordOf_eq hc.2.2.2 hid hr, State.refreshed_eq (by exact hasset)]

end Sys2Proof.Machine
end

section
/-! PROOFS. The law of the fault table as a ledger that stays balanced: what each of its operations does to it, with the
assets whose entry is being made exempt for the moment (R98 to R113). -/

namespace Sys2Proof.Machine

/-! ## The ledger -/

/-- The fault table's law, but for the waiting list being empty while there is room, and with the law of some assets left
open. -/
structure State.Ledger (s : State) (free : Nat → Prop) : Prop where
  canonical : s.Canonical
  holder : ∀ {id r}, s.records.get? id = some r → s.faultIdOf r.asset = some id
  record : ∀ {a id}, s.faultIdOf a = some id → ∃ r, s.records.get? id = some r ∧ r.asset = a
  ids : ∀ {id r}, s.records.get? id = some r → 1 ≤ id ∧ id ≤ 65535
  capacity : s.records.length ≤ Config.recordCapacity
  nextId : 1 ≤ s.nextId ∧ s.nextId ≤ 65535
  lawful : ∀ {a x}, s.asset? a = some x → ¬free a → s.AssetLaw a x
  flags : ∀ {a x}, s.asset? a = some x → (x.waiting = true ↔ a ∈ s.waiting)
  nodup : s.waiting.Nodup
  present : ∀ {a}, a ∈ s.waiting → s.asset? a ≠ none

/-- Assets wait only for a full table (R110, R111). -/
def State.Crowded (s : State) : Prop := s.waiting ≠ [] → s.records.length = Config.recordCapacity

/-- A ledger with no entry open. -/
def State.Balanced (s : State) : Prop := s.Ledger fun _ => False

theorem State.faultIdOf_eq_some {s : State} {a id : Nat} :
    s.faultIdOf a = some id ↔ ∃ x, s.asset? a = some x ∧ x.faultId = some id := Option.bind_eq_some_iff

theorem State.faultIdOf_of_asset? {s : State} {a : Nat} {x : Asset} (h : s.asset? a = some x) : s.faultIdOf a = x.faultId := by
  rw [State.faultIdOf, h]
  rfl

theorem State.FaultLaw.balanced {s : State} (h : s.FaultLaw) (hc : s.Canonical) : s.Balanced := by
  obtain ⟨hcap, hrec, hassets, hnodup, hpresent, -, hnext⟩ := h
  refine
    { canonical := hc
      holder := fun hr => ?_
      record := fun ha => ?_
      ids := fun hr => ?_
      capacity := hcap
      nextId := hnext
      lawful := fun hx _ => hassets _ (Table.mem_of_get? hx)
      flags := fun hx => ?_
      nodup := hnodup
      present := fun ha => Option.isSome_iff_ne_none.1 (hpresent _ ha) }
  · obtain ⟨-, -, x, hx, hid⟩ := hrec _ (Table.mem_of_get? hr)
    exact State.faultIdOf_eq_some.2 ⟨x, hx, hid⟩
  · obtain ⟨x, hx, hid⟩ := State.faultIdOf_eq_some.1 ha
    obtain ⟨hheld, -⟩ := hassets _ (Table.mem_of_get? hx)
    obtain ⟨-, -, r, hr, hra, -⟩ := hheld _ hid
    exact ⟨r, hr, hra⟩
  · obtain ⟨h1, h2, -⟩ := hrec _ (Table.mem_of_get? hr)
    exact ⟨h1, h2⟩
  · obtain ⟨-, -, hflag, -⟩ := hassets _ (Table.mem_of_get? hx)
    exact hflag

theorem State.FaultLaw.crowded {s : State} (h : s.FaultLaw) : s.Crowded := h.2.2.2.2.2.1

theorem State.Balanced.faultLaw {s : State} (h : s.Balanced) (hcrowd : s.Crowded) : s.FaultLaw := by
  refine ⟨h.capacity, fun e he => ?_, fun e he => h.lawful (Table.get?_of_mem h.canonical.1 he) id, h.nodup,
    fun a ha => Option.isSome_iff_ne_none.2 (h.present ha), hcrowd, h.nextId⟩
  have hr := Table.get?_of_mem h.canonical.2.2.2 he
  obtain ⟨h1, h2⟩ := h.ids hr
  exact ⟨h1, h2, State.faultIdOf_eq_some.1 (h.holder hr)⟩

/-! ## What the ledger is read from -/

/-- What the ledger reads of an asset. -/
def Asset.standing (x : Asset) : Health × Option Nat × Option Nat × Bool := (x.health, x.absorbedBy, x.faultId, x.waiting)

/-- Records may change in all but their asset, and those of open entries in their severity too. -/
def SameLinks (s t : State) (free : Nat → Prop) : Prop :=
  ∀ id, (s.records.get? id = none ∧ t.records.get? id = none)
    ∨ ∃ r r', s.records.get? id = some r ∧ t.records.get? id = some r' ∧ r'.asset = r.asset
      ∧ (¬free r.asset → r'.severity = r.severity)

theorem SameLinks.of_eq {s t : State} {free : Nat → Prop} (h : t.records = s.records) : SameLinks s t free := by
  intro id
  rw [h]
  cases hr : s.records.get? id with
  | none => exact .inl ⟨rfl, rfl⟩
  | some r => exact .inr ⟨r, r, rfl, rfl, rfl, fun _ => rfl⟩

theorem SameLinks.mapAll {s : State} {free : Nat → Prop} {f : Nat → FaultRecord → FaultRecord}
    (hf : ∀ id r, (f id r).asset = r.asset ∧ (¬free r.asset → (f id r).severity = r.severity)) {t : State}
    (ht : t.records = s.records.mapAll f) : SameLinks s t free := by
  intro id
  rw [ht, Table.get?_mapAll]
  cases hr : s.records.get? id with
  | none => exact .inl ⟨rfl, rfl⟩
  | some r => exact .inr ⟨r, f id r, rfl, rfl, hf id r⟩

theorem SameLinks.adjust {s : State} {free : Nat → Prop} {id : Nat} {f : FaultRecord → FaultRecord}
    (hf : ∀ r, s.records.get? id = some r → (f r).asset = r.asset ∧ (¬free r.asset → (f r).severity = r.severity)) :
    SameLinks s (s.adjustRecord id f) free := by
  intro j
  rw [State.adjustRecord, State.setRecords_records, Table.get?_adjust]
  cases hr : s.records.get? j with
  | none => left; split <;> exact ⟨rfl, rfl⟩
  | some r =>
    right
    split
    · next hj => exact ⟨r, f r, rfl, rfl, hf r (hj ▸ hr)⟩
    · exact ⟨r, r, rfl, rfl, rfl, fun _ => rfl⟩

theorem SameLinks.some_iff {s t : State} {free : Nat → Prop} (h : SameLinks s t free) {id : Nat} {r' : FaultRecord}
    (hr : t.records.get? id = some r') : ∃ r, s.records.get? id = some r ∧ r'.asset = r.asset := by
  rcases h id with ⟨-, hn⟩ | ⟨r, r'', hs, ht, ha, -⟩
  · rw [hr] at hn
    cases hn
  · obtain rfl : r' = r'' := Option.some.inj (hr.symm.trans ht)
    exact ⟨r, hs, ha⟩

/-- The fields of an asset that point into the fault table. -/
def Asset.place (x : Asset) : Option Nat × Bool := (x.faultId, x.waiting)

theorem State.faultIdOf_of_place {s t : State} {a : Nat}
    (h : (t.asset? a).map Asset.place = (s.asset? a).map Asset.place) : t.faultIdOf a = s.faultIdOf a := by
  rw [State.faultIdOf, State.faultIdOf]
  cases hx : s.asset? a <;> cases hy : t.asset? a <;> simp_all [Asset.place]

/-- A ledger is kept by whatever leaves what it reads; of an open entry it reads no more than fault ID and waiting flag. -/
theorem State.Ledger.of_same {s t : State} {free : Nat → Prop} (h : s.Ledger free) (hc : t.Canonical)
    (hplace : ∀ a, (t.asset? a).map Asset.place = (s.asset? a).map Asset.place)
    (hstanding : ∀ a, ¬free a → (t.asset? a).map Asset.standing = (s.asset? a).map Asset.standing)
    (hrec : SameLinks s t free) (hlen : t.records.length = s.records.length) (hw : t.waiting = s.waiting)
    (hn : t.nextId = s.nextId) : t.Ledger free := by
  have ids (a : Nat) : t.faultIdOf a = s.faultIdOf a := State.faultIdOf_of_place (hplace a)
  have places {a : Nat} {y : Asset} (hy : t.asset? a = some y) : ∃ x, s.asset? a = some x ∧ y.place = x.place := by
    have ha := hplace a
    rw [hy, Option.map_some, eq_comm, Option.map_eq_some_iff] at ha
    obtain ⟨x, hx, he⟩ := ha
    exact ⟨x, hx, he.symm⟩
  refine
    { canonical := hc
      holder := fun hr => ?_
      record := fun ha => ?_
      ids := fun hr => ?_
      capacity := hlen ▸ h.capacity
      nextId := hn ▸ h.nextId
      lawful := fun {a y} hy hfree => ?_
      flags := fun hy => ?_
      nodup := hw ▸ h.nodup
      present := fun {a} ha => ?_ }
  · obtain ⟨r, hs, ha⟩ := hrec.some_iff hr
    rw [ids, ha, h.holder hs]
  · rw [ids] at ha
    obtain ⟨r, hs, hra⟩ := h.record ha
    rcases hrec _ with ⟨hnone, -⟩ | ⟨r', r'', hs', ht, heq, -⟩
    · rw [hs] at hnone
      cases hnone
    · obtain rfl : r = r' := Option.some.inj (hs.symm.trans hs')
      exact ⟨r'', ht, heq.trans hra⟩
  · obtain ⟨r, hs, -⟩ := hrec.some_iff hr
    exact h.ids hs
  · have ha := hstanding a hfree
    rw [hy, Option.map_some, eq_comm, Option.map_eq_some_iff] at ha
    obtain ⟨x, hx, he⟩ := ha
    simp only [Asset.standing, Prod.mk.injEq] at he
    obtain ⟨hhealth, hab, hid, hwt⟩ := he
    obtain ⟨hheld, hwaits, hflag, hfaulty⟩ := h.lawful hx hfree
    refine ⟨fun id hyid => ?_, ?_, ?_, ?_⟩
    · obtain ⟨h1, h2, r, hr, hra, hsev⟩ := hheld id (hid ▸ hyid)
      rcases hrec id with ⟨hnone, -⟩ | ⟨r', r'', hs', ht, heq, hkeep⟩
      · rw [show s.records.get? id = some r from hr] at hnone
        cases hnone
      · obtain rfl : r = r' := Option.some.inj ((show s.records.get? id = some r from hr).symm.trans hs')
        exact ⟨hab ▸ h1, hwt ▸ h2, r'', ht, heq.trans hra, by rw [← hhealth, hsev, hkeep (hra ▸ hfree)]⟩
    · rw [← hwt, ← hhealth, ← hab, ← hid]
      exact hwaits
    · rw [← hwt, hw]
      exact hflag
    · rw [← hhealth, ← hid, ← hab, ← hwt]
      exact hfaulty
  · obtain ⟨x, hx, he⟩ := places hy
    simp only [Asset.place, Prod.mk.injEq] at he
    rw [he.2, hw]
    exact h.flags hx
  · rw [hw] at ha
    intro hnone
    have he := hplace a
    rw [hnone, Option.map_none, eq_comm, Option.map_eq_none_iff] at he
    exact h.present ha he

/-! ## Opening and closing an entry -/

section
variable {s : State} {free : Nat → Prop}

theorem State.Ledger.mono (h : s.Ledger free) {free' : Nat → Prop} (hf : ∀ a, free a → free' a) : s.Ledger free' :=
  { h with lawful := fun hx ha => h.lawful hx fun hfree => ha (hf _ hfree) }

/-- An open entry whose law holds is closed. -/
theorem State.Ledger.settle {a : Nat} (h : s.Ledger (· = a)) (ha : ∀ x, s.asset? a = some x → s.AssetLaw a x) :
    s.Balanced := by
  refine { h with lawful := fun {b x} hx _ => ?_ }
  by_cases hb : b = a
  · exact hb ▸ ha x (hb ▸ hx)
  · exact h.lawful hx hb

/-- The condition and the absorber of an open entry change. -/
theorem State.Ledger.mark (h : s.Ledger free) {a : Nat} (ha : free a) {f : Asset → Asset}
    (hf : ∀ x, (f x).place = x.place) : (s.adjustAsset a f).Ledger free := by
  refine h.of_same (h.canonical.setAssets (Table.wf_adjust h.canonical.1 a f)) (fun b => ?_) (fun b hb => ?_)
    (.of_eq rfl) rfl rfl rfl
  · rw [State.asset?_adjustAsset]
    split
    · cases s.asset? b with
      | none => rfl
      | some x => simp [hf]
    · rfl
  · rw [State.asset?_adjustAsset, if_neg fun hba : b = a => hb (hba ▸ ha)]

/-- The record an asset holds changes in other fields than its asset, and the severity with an open entry alone. -/
theorem State.Ledger.onRecordOf (h : s.Ledger free) (a : Nat) {f : FaultRecord → FaultRecord}
    (hf : ∀ r : FaultRecord, (f r).asset = r.asset ∧ (¬free a → (f r).severity = r.severity)) :
    (s.onRecordOf a f).Ledger free := by
  unfold State.onRecordOf
  split
  · next id hid =>
    obtain ⟨r, hr, hra⟩ := h.record hid
    refine h.of_same (h.canonical.adjustRecord id f) (fun _ => rfl) (fun _ _ => rfl) (.adjust fun r' hr' => ?_)
      (by simp [State.adjustRecord, Table.adjust]) rfl rfl
    obtain rfl : r = r' := Option.some.inj (hr.symm.trans hr')
    exact hra ▸ hf r
  · exact h

end

theorem State.refreshed_asset (s : State) (r : FaultRecord) : (s.refreshed r).asset = r.asset := (s.refreshed_tuned r).asset

theorem State.refreshed_severity (s : State) (r : FaultRecord) : (s.refreshed r).severity = r.severity := by
  unfold State.refreshed
  split
  · rfl
  · dsimp only
    split <;> rfl

theorem State.refreshed_absorbed (s : State) (r : FaultRecord) : (s.refreshed r).absorbed = r.absorbed := by
  unfold State.refreshed
  split
  · rfl
  · dsimp only
    split <;> rfl

section
variable {s : State} {free : Nat → Prop} (h : s.Ledger free)
include h

theorem State.Ledger.raiseOn (a : Nat) : (s.raiseOn a).Ledger free :=
  h.onRecordOf a fun _ => ⟨s.refreshed_asset _, fun _ => s.refreshed_severity _⟩

theorem State.Ledger.lowerOn (a : Nat) : (s.lowerOn a).Ledger free :=
  h.onRecordOf a fun _ => ⟨s.refreshed_asset _, fun _ => s.refreshed_severity _⟩

theorem State.Ledger.notify (n : Notice) : (s.notify n).Ledger free :=
  h.of_same (h.canonical.of_tables rfl) (fun _ => rfl) (fun _ _ => rfl) (.of_eq rfl) rfl rfl rfl

theorem State.Ledger.queueWalk (a : Nat) (kind : WalkKind) : (s.queueWalk a kind).Ledger free :=
  h.of_same (h.canonical.of_tables rfl) (fun _ => rfl) (fun _ _ => rfl) (.of_eq rfl) rfl rfl rfl

end

/-! ## Creation and removal -/

/-- What an asset's entry is after a change of one asset. -/
theorem State.faultIdOf_adjustAsset {s : State} {a b : Nat} {x : Asset} (hx : s.asset? a = some x) (f : Asset → Asset) :
    (s.adjustAsset a f).faultIdOf b = if b = a then (f x).faultId else s.faultIdOf b := by
  rw [State.faultIdOf, State.asset?_adjustAsset]
  split
  · next hb => rw [hb, hx]; rfl
  · rfl

/-- The law of an asset whose entry no change has touched. -/
theorem State.AssetLaw.of_untouched {s t : State} {a : Nat} {x : Asset} (h : s.AssetLaw a x)
    (hrec : ∀ id, x.faultId = some id → t.records.get? id = s.records.get? id) (hw : a ∈ t.waiting ↔ a ∈ s.waiting) :
    t.AssetLaw a x := by
  obtain ⟨hheld, hwaits, hflag, hfaulty⟩ := h
  refine ⟨fun id hid => ?_, hwaits, hflag.trans hw.symm, hfaulty⟩
  rw [hrec id hid]
  exact hheld id hid

section
variable {s : State} {free : Nat → Prop} (h : s.Ledger free)
include h

theorem State.Ledger.freeId_fresh (hl : s.records.length < Config.recordCapacity) : s.records.get? s.freeId = none :=
  State.freeId_fresh h.canonical.2.2.2 hl h.nextId

/-- A record created for a FAULTY asset that has none, is not absorbed and does not wait (R99 to R103). -/
theorem State.Ledger.create {a : Nat} {x : Asset} {severity : Severity} (hx : s.asset? a = some x)
    (hf : x.health = .faulty severity) (hab : x.absorbedBy = none) (hid : x.faultId = none) (hwait : x.waiting = false)
    (hl : s.records.length < Config.recordCapacity) : (s.createRecord a).Ledger fun b => free b ∧ b ≠ a := by
  have fresh := h.freeId_fresh hl
  have canonical := (faultOps_createRecord s a).canonical h.canonical
  have holds (b : Nat) : (s.createRecord a).faultIdOf b = if b = a then some s.freeId else s.faultIdOf b := by
    rw [State.createRecord_eq h.canonical.2.2.2 hx hf]
    exact State.faultIdOf_adjustAsset hx _
  have assets (b : Nat) : (s.createRecord a).asset? b
      = if b = a then some { x with faultId := some s.freeId } else s.asset? b := by
    rw [State.createRecord_eq h.canonical.2.2.2 hx hf]
    refine (s.asset?_adjustAsset a b fun x => { x with faultId := some s.freeId }).trans ?_
    split
    · next hb => rw [hb, hx]; rfl
    · rfl
  have records (id : Nat) : (s.createRecord a).records.get? id
      = if id = s.freeId then some (s.raisedRecord a x severity (s.countedAtCreation a)) else s.records.get? id := by
    rw [State.createRecord_eq h.canonical.2.2.2 hx hf]
    by_cases he : id = s.freeId
    · rw [if_pos he, he]
      exact Table.get?_put_self _ _ _
    · rw [if_neg he]
      exact Table.get?_put_of_ne _ _ he
  have waiting : (s.createRecord a).waiting = s.waiting := by rw [State.createRecord_eq h.canonical.2.2.2 hx hf]
  have unheld : s.faultIdOf a = none := (State.faultIdOf_of_asset? hx).trans hid
  refine
    { canonical := canonical
      holder := fun {id r} hr => ?_
      record := fun {b id} hb => ?_
      ids := fun {id r} hr => ?_
      capacity := ?_
      nextId := ?_
      lawful := fun {b y} hy hfree => ?_
      flags := fun {b y} hy => ?_
      nodup := waiting ▸ h.nodup
      present := fun {b} hb => ?_ }
  · rw [records] at hr
    rw [holds]
    split at hr
    · next he =>
      cases hr
      rw [he]
      exact if_pos rfl
    · have hs := h.holder hr
      have hne : r.asset ≠ a := fun ha => by rw [ha, unheld] at hs; cases hs
      rw [if_neg hne, hs]
  · rw [holds] at hb
    split at hb
    · next hba =>
      cases hb
      exact ⟨_, (records _).trans (if_pos rfl), hba.symm⟩
    · obtain ⟨r, hr, hra⟩ := h.record hb
      have hne : id ≠ s.freeId := fun he => by rw [he, fresh] at hr; cases hr
      exact ⟨r, by rw [records, if_neg hne, hr], hra⟩
  · rw [records] at hr
    split at hr
    · next he => exact he ▸ State.freeId_range h.nextId
    · exact h.ids hr
  · rw [State.createRecord_eq h.canonical.2.2.2 hx hf]
    exact (Table.length_put_le _ _ _).trans hl
  · rw [State.createRecord_eq h.canonical.2.2.2 hx hf]
    exact nextFaultId_range (State.freeId_range h.nextId)
  · rw [assets] at hy
    split at hy
    · next hba =>
      cases hy
      have hflag : False ↔ b ∈ s.waiting := by simpa [hwait, hba] using h.flags hx
      refine ⟨fun id hid => ?_, fun hw => ?_, ?_, fun _ => .inl nofun⟩
      · cases hid
        exact ⟨hab, hwait, _, (records _).trans (if_pos rfl), hba.symm, hf⟩
      · exact absurd hw (by simp [hwait])
      · rw [waiting, ← hflag]
        simp [hwait]
    · next hba =>
      refine (h.lawful hy fun hb => hfree ⟨hb, hba⟩).of_untouched (fun id hid => ?_) (by rw [waiting])
      have hs : s.faultIdOf b = some id := (State.faultIdOf_of_asset? hy).trans hid
      obtain ⟨r, hr, -⟩ := h.record hs
      have hne : id ≠ s.freeId := fun he => by rw [he, fresh] at hr; cases hr
      rw [records, if_neg hne]
  · rw [assets] at hy
    rw [waiting]
    split at hy
    · next hba =>
      cases hy
      subst hba
      exact (h.flags hx :)
    · exact h.flags hy
  · rw [waiting] at hb
    rw [assets]
    split
    · exact Option.some_ne_none _
    · exact h.present hb

/-- The record an asset holds is discarded, and the asset's entry is open (R107, R113). -/
theorem State.Ledger.discard {a id : Nat} (hid : s.faultIdOf a = some id) :
    (s.discardRecord id a).Ledger fun b => free b ∨ b = a := by
  obtain ⟨x, hx, hxid⟩ := State.faultIdOf_eq_some.1 hid
  obtain ⟨r₀, hr₀, hra₀⟩ := h.record hid
  have canonical := (faultOps_discardRecord s id a).canonical h.canonical
  have holds (b : Nat) : (s.discardRecord id a).faultIdOf b = if b = a then none else s.faultIdOf b :=
    State.faultIdOf_adjustAsset hx fun x => { x with faultId := none }
  have assets (b : Nat) : (s.discardRecord id a).asset? b
      = if b = a then some { x with faultId := none } else s.asset? b := by
    refine (s.asset?_adjustAsset a b fun x => { x with faultId := none }).trans ?_
    split
    · next hb => rw [hb, hx]; rfl
    · rfl
  have kept {j : Nat} (hj : j ≠ id) : (s.discardRecord id a).records.get? j = s.records.get? j := Table.get?_del_of_ne _ hj
  have gone : (s.discardRecord id a).records.get? id = none := Table.get?_del_self _ _
  refine
    { canonical := canonical
      holder := fun {j r} hr => ?_
      record := fun {b j} hb => ?_
      ids := fun {j r} hr => ?_
      capacity := (List.length_filter_le _ _).trans h.capacity
      nextId := h.nextId
      lawful := fun {b y} hy hfree => ?_
      flags := fun {b y} hy => ?_
      nodup := h.nodup
      present := fun {b} hb => ?_ }
  · by_cases hj : j = id
    · rw [hj, gone] at hr
      cases hr
    · rw [kept hj] at hr
      have hs := h.holder hr
      have hne : r.asset ≠ a := fun ha => hj (Option.some.inj (hs.symm.trans (ha.symm ▸ hid)))
      rw [holds, if_neg hne, hs]
  · rw [holds] at hb
    split at hb
    · cases hb
    · next hba =>
      obtain ⟨r, hr, hra⟩ := h.record hb
      refine ⟨r, (kept ?_).trans hr, hra⟩
      rintro rfl
      obtain rfl : r₀ = r := Option.some.inj (hr₀.symm.trans hr)
      exact hba (hra.symm.trans hra₀)
  · by_cases hj : j = id
    · rw [hj, gone] at hr
      cases hr
    · exact h.ids ((kept hj).symm.trans hr)
  · obtain ⟨hfree, hba⟩ := not_or.1 hfree
    rw [assets, if_neg hba] at hy
    refine (h.lawful hy hfree).of_untouched (fun j hj => kept ?_) Iff.rfl
    rintro rfl
    have hs : s.faultIdOf b = some j := (State.faultIdOf_of_asset? hy).trans hj
    obtain ⟨r, hr, hra⟩ := h.record hs
    obtain rfl : r₀ = r := Option.some.inj (hr₀.symm.trans hr)
    exact hba (hra.symm.trans hra₀)
  · rw [assets] at hy
    split at hy
    · next hba =>
      cases hy
      subst hba
      exact (h.flags hx :)
    · exact h.flags hy
  · rw [assets]
    split
    · exact Option.some_ne_none _
    · exact h.present hb

end

/-! ## Lengths -/

theorem Table.length_put_of_get?_eq_none {α : Type} {t : Table α} {k : Nat} (h : t.get? k = none) (x : α) :
    (t.put k x).length = t.length + 1 := by
  induction t with
  | nil => rfl
  | cons e rest ih =>
    rw [Table.get?_cons] at h
    split at h
    · cases h
    · next hne =>
      simp only [Table.put]
      split
      · rfl
      · rw [if_neg fun he : k = e.1 => hne he.symm, List.length_cons, ih h, List.length_cons]

theorem Table.length_le_length_del {α : Type} {t : Table α} (h : t.wf = true) (k : Nat) :
    t.length ≤ (t.del k).length + 1 := by
  rw [Table.wf_iff] at h
  have once : (t.map Prod.fst).count k ≤ 1 := List.nodup_iff_count_le_one.1 (h.imp fun hlt => Nat.ne_of_lt hlt) k
  rw [List.count_eq_countP, List.countP_map] at once
  have parts := List.length_eq_countP_add_countP ((· == k) ∘ Prod.fst) (l := t)
  have others : (t.del k).length = t.countP fun e => decide ¬((· == k) ∘ Prod.fst) e = true := by
    rw [Table.del, ← List.countP_eq_length_filter]
    exact List.countP_congr fun e _ => by simp
  omega

/-! ## The waiting list (R102, R109 to R112) -/

/-- What an entry's change of waiting flag, with the list's change, leaves of the other entries. -/
theorem State.Ledger.changeWaiting {s : State} {free : Nat → Prop} (h : s.Ledger free) {a : Nat} {b : Bool} {w : List Nat}
    (hw : ∀ c, c ≠ a → (c ∈ w ↔ c ∈ s.waiting)) (hb : b = true ↔ a ∈ w) (hn : w.Nodup) (ha : s.asset? a ≠ none) :
    ((s.setWaiting w).adjustAsset a fun x => { x with waiting := b }).Ledger fun c => free c ∨ c = a := by
  obtain ⟨x, hx⟩ := Option.ne_none_iff_exists'.1 ha
  have assets (c : Nat) : ((s.setWaiting w).adjustAsset a fun x => { x with waiting := b }).asset? c
      = if c = a then some { x with waiting := b } else s.asset? c := by
    refine (s.asset?_adjustAsset a c fun x => { x with waiting := b }).trans ?_
    split
    · next hc => rw [hc, hx]; rfl
    · rfl
  have holds (c : Nat) : ((s.setWaiting w).adjustAsset a fun x => { x with waiting := b }).faultIdOf c = s.faultIdOf c := by
    rw [State.faultIdOf, assets]
    split
    · next hc => rw [hc, State.faultIdOf, hx]; rfl
    · rfl
  refine
    { canonical := h.canonical.setAssets (Table.wf_adjust h.canonical.1 a _)
      holder := fun hr => (holds _).trans (h.holder hr)
      record := fun hb => h.record ((holds _).symm.trans hb)
      ids := fun hr => h.ids hr
      capacity := h.capacity
      nextId := h.nextId
      lawful := fun {c y} hy hfree => ?_
      flags := fun {c y} hy => ?_
      nodup := hn
      present := fun {c} hc => ?_ }
  · obtain ⟨hfree, hca⟩ := not_or.1 hfree
    rw [assets, if_neg hca] at hy
    exact (h.lawful hy hfree).of_untouched (fun _ _ => rfl) (hw c hca)
  · rw [assets] at hy
    split at hy
    · next hca =>
      cases hy
      exact hca ▸ hb
    · next hca => exact (h.flags hy).trans (hw c hca).symm
  · rw [assets]
    split
    · exact Option.some_ne_none _
    · next hca => exact h.present ((hw c hca).1 hc)

section
variable {s : State} {free : Nat → Prop} (h : s.Ledger free)
include h

theorem State.Ledger.joinWaiting {a : Nat} {x : Asset} (hx : s.asset? a = some x) (hf : x.waiting = false) :
    (s.joinWaiting a).Ledger fun c => free c ∨ c = a := by
  have apart : a ∉ s.waiting := fun ha => by
    rw [(h.flags hx).2 ha] at hf
    cases hf
  refine h.changeWaiting (fun c hc => by simp [hc]) (by simp) ?_ (by simp [hx])
  rw [List.nodup_append]
  exact ⟨h.nodup, List.nodup_singleton a, fun c hc b hb => by
    rw [List.mem_singleton.1 hb]
    exact fun he => apart (he ▸ hc)⟩

theorem State.Ledger.leaveWaiting {a : Nat} (ha : s.asset? a ≠ none) :
    (s.leaveWaiting a).Ledger fun c => free c ∨ c = a :=
  h.changeWaiting (fun c hc => by simp [hc]) (by simp) (h.nodup.filter _) ha

/-- A freed record serves the head of the waiting list: it leaves the list, and its record is created. -/
theorem State.Ledger.serveWaiting_cons {a : Nat} {rest : List Nat} (hw : s.waiting = a :: rest) :
    s.serveWaiting = (s.leaveWaiting a).createRecord a := by
  have nodup := h.nodup
  rw [hw, List.nodup_cons] at nodup
  have popped : s.waiting.filter (fun b => b ≠ a) = rest := by
    rw [hw, List.filter_cons_of_neg (by simp)]
    exact List.filter_eq_self.2 fun b hb => by
      rw [decide_eq_true_eq]
      exact fun he => nodup.1 (he ▸ hb)
  rw [State.leaveWaiting, popped, State.serveWaiting, hw]

/-- What the head of the waiting list brings to its record. -/
theorem State.Ledger.head {a : Nat} {rest : List Nat} (hw : s.waiting = a :: rest) (hfree : ¬free a) :
    ∃ x severity, s.asset? a = some x ∧ x.health = .faulty severity ∧ x.absorbedBy = none ∧ x.faultId = none := by
  have ha : a ∈ s.waiting := hw ▸ List.mem_cons_self
  obtain ⟨x, hx⟩ := Option.ne_none_iff_exists'.1 (h.present ha)
  obtain ⟨-, hwaits, -, -⟩ := h.lawful hx hfree
  obtain ⟨hhealth, hab, hid⟩ := hwaits ((h.flags hx).2 ha)
  cases hf : x.health with
  | healthy => exact absurd hf hhealth
  | faulty severity => exact ⟨x, severity, hx, hf, hab, hid⟩

end

theorem State.asset?_leaveWaiting {s : State} {a : Nat} {x : Asset} (hx : s.asset? a = some x) :
    (s.leaveWaiting a).asset? a = some { x with waiting := false } := by
  refine (s.asset?_adjustAsset a a fun x => { x with waiting := false }).trans ?_
  rw [if_pos rfl, hx]
  rfl

/-- Serving the waiting list after a record has gone leaves a balanced ledger, and the list empty or the table full. -/
theorem State.Balanced.serveWaiting {s : State} (h : s.Balanced)
    (hl : s.waiting ≠ [] → s.records.length + 1 = Config.recordCapacity) : s.serveWaiting.Balanced ∧ s.serveWaiting.Crowded := by
  cases hw : s.waiting with
  | nil =>
    have served : s.serveWaiting = s := by rw [State.serveWaiting, hw]
    rw [served]
    exact ⟨h, fun hne => absurd hw hne⟩
  | cons a rest =>
    obtain ⟨x, severity, hx, hf, hab, hid⟩ := h.head hw id
    have length := hl (by simp [hw])
    have left := h.leaveWaiting (a := a) (by simp [hx])
    have room : (s.leaveWaiting a).records.length < Config.recordCapacity := by
      rw [show (s.leaveWaiting a).records = s.records from rfl]
      omega
    have created := left.create (State.asset?_leaveWaiting hx) hf hab hid rfl room
    rw [h.serveWaiting_cons hw]
    refine ⟨created.mono (by rintro b ⟨hb | hb, hba⟩; exacts [hb, hba hb]), fun _ => ?_⟩
    have fresh := left.freeId_fresh room
    rw [State.createRecord_eq left.canonical.2.2.2 (State.asset?_leaveWaiting hx) hf]
    exact (Table.length_put_of_get?_eq_none fresh _).trans length

end Sys2Proof.Machine
end

section
/-! PROOFS. Samples and the visits of walks and rebuild under the fault table's law: the four places an asset can have, what
each unit of work does to an asset in each of them, and with it the law kept by every step (O58). -/

namespace Sys2Proof.Machine

/-! ## The four places of an asset -/

/-- The places an asset can have: HEALTHY, or FAULTY and absorbed, holding a record, or waiting (R99, R101, R102, R110). -/
inductive Asset.Placed (x : Asset) : Prop
  | healthy (hf : x.health = .healthy) (hid : x.faultId = none) (hw : x.waiting = false)
  | absorbed (z : Nat) (hf : x.health ≠ .healthy) (hab : x.absorbedBy = some z) (hid : x.faultId = none)
      (hw : x.waiting = false)
  | holding (own : Nat) (hf : x.health ≠ .healthy) (hab : x.absorbedBy = none) (hid : x.faultId = some own)
      (hw : x.waiting = false)
  | waits (hf : x.health ≠ .healthy) (hab : x.absorbedBy = none) (hid : x.faultId = none) (hw : x.waiting = true)

theorem State.AssetLaw.placed {s : State} {a : Nat} {x : Asset} (h : s.AssetLaw a x) : x.Placed := by
  obtain ⟨hheld, hwaits, -, hfaulty⟩ := h
  cases hid : x.faultId with
  | some own =>
    obtain ⟨hab, hw, r, -, -, hf⟩ := hheld own hid
    exact .holding own (by rw [hf]; exact nofun) hab hid hw
  | none =>
    cases hw : x.waiting with
    | true =>
      obtain ⟨hf, hab, -⟩ := hwaits hw
      exact .waits hf hab hid hw
    | false =>
      by_cases hf : x.health = .healthy
      · exact .healthy hf hid hw
      · rcases hfaulty hf with h | h | h
        · exact absurd hid h
        · obtain ⟨z, hz⟩ := Option.ne_none_iff_exists'.1 h
          exact .absorbed z hf hz hid hw
        · rw [hw] at h
          cases h

theorem Health.faulty_of_ne {h : Health} (hf : h ≠ .healthy) : ∃ severity, h = .faulty severity := by
  cases h with
  | healthy => exact absurd rfl hf
  | faulty severity => exact ⟨severity, rfl⟩

theorem Asset.faulty_eq_false {x : Asset} (h : x.health = .healthy) : x.faulty = false := by simp [Asset.faulty, h]

theorem Asset.faulty_eq_true {x : Asset} (h : x.health ≠ .healthy) : x.faulty = true := by simp [Asset.faulty, h]

section
variable {s : State} (h : s.Balanced)
include h

theorem State.Balanced.assetLaw {a : Nat} {x : Asset} (hx : s.asset? a = some x) : s.AssetLaw a x := h.lawful hx id

theorem State.Balanced.not_waiting {a : Nat} {x : Asset} (hx : s.asset? a = some x) (hw : x.waiting = false) :
    a ∉ s.waiting := fun ha => by
  rw [(h.flags hx).2 ha] at hw
  cases hw

/-- The record an asset holds, with the asset's severity. -/
theorem State.Balanced.held {a id : Nat} {x : Asset} (hx : s.asset? a = some x) (hid : x.faultId = some id) :
    ∃ r, s.records.get? id = some r ∧ r.asset = a ∧ x.health = .faulty r.severity := by
  obtain ⟨-, -, r, hr, hra, hf⟩ := (h.assetLaw hx).1 id hid
  exact ⟨r, hr, hra, hf⟩

end

/-- The law of an asset in a place outside the fault table: HEALTHY, or absorbed. -/
theorem State.AssetLaw.of_outside {s : State} {a : Nat} {x : Asset} (hid : x.faultId = none) (hw : x.waiting = false)
    (ha : a ∉ s.waiting) (hf : x.health ≠ .healthy → x.absorbedBy ≠ none) : s.AssetLaw a x :=
  ⟨fun id he => by simp [hid] at he, fun he => by simp [hw] at he, by simp [hw, ha],
    fun he => .inr (.inl (hf he))⟩

/-- The law of an asset that waits. -/
theorem State.AssetLaw.of_waiting {s : State} {a : Nat} {x : Asset} (hf : x.health ≠ .healthy) (hab : x.absorbedBy = none)
    (hid : x.faultId = none) (hw : x.waiting = true) (ha : a ∈ s.waiting) : s.AssetLaw a x :=
  ⟨fun id he => by simp [hid] at he, fun _ => ⟨hf, hab, hid⟩, by simp [hw, ha], fun _ => .inr (.inr hw)⟩

/-! ## Requests on an open entry -/

theorem State.Crowded.of_same {s t : State} (h : s.Crowded) (hw : t.waiting = s.waiting)
    (hl : t.records.length = s.records.length) : t.Crowded := fun hne => hl ▸ h (hw ▸ hne)

theorem State.onRecordOf_waiting (s : State) (a : Nat) (f : FaultRecord → FaultRecord) :
    (s.onRecordOf a f).waiting = s.waiting := by unfold State.onRecordOf; split <;> rfl

theorem State.onRecordOf_length (s : State) (a : Nat) (f : FaultRecord → FaultRecord) :
    (s.onRecordOf a f).records.length = s.records.length := by
  unfold State.onRecordOf
  split
  · exact Table.length_adjust _ _ _
  · rfl

theorem State.onRecordOf_asset? (s : State) (a : Nat) (f : FaultRecord → FaultRecord) (b : Nat) :
    (s.onRecordOf a f).asset? b = s.asset? b := by rw [State.asset?, State.onRecordOf_assets, State.asset?]

theorem State.raiseOn_asset? (s : State) (a b : Nat) : (s.raiseOn a).asset? b = s.asset? b := s.onRecordOf_asset? _ _ _

theorem State.lowerOn_asset? (s : State) (a b : Nat) : (s.lowerOn a).asset? b = s.asset? b := s.onRecordOf_asset? _ _ _

section
variable {s : State} {a : Nat} (h : s.Ledger (· = a))
include h

theorem State.Ledger.open_asset {x : Asset} (hx : s.asset? a = some x) (hw : x.waiting = false) : a ∉ s.waiting :=
  fun ha => by
    rw [(h.flags hx).2 ha] at hw
    cases hw

/-- An entry that is HEALTHY or absorbed, and neither holds nor waits, is closed. -/
theorem State.Ledger.settle_outside {x : Asset} (hx : s.asset? a = some x) (hid : x.faultId = none)
    (hw : x.waiting = false) (hf : x.health ≠ .healthy → x.absorbedBy ≠ none) : s.Balanced := by
  refine h.settle fun y hy => ?_
  obtain rfl : x = y := Option.some.inj (hx.symm.trans hy)
  exact .of_outside hid hw (h.open_asset hx hw) hf

/-- A request for a fault that is not absorbed: a record, or a place on the waiting list (R102). -/
theorem State.Ledger.openFault {x : Asset} (hx : s.asset? a = some x) (hf : x.health ≠ .healthy) (hab : x.absorbedBy = none)
    (hid : x.faultId = none) (hw : x.waiting = false) (hc : s.Crowded) :
    (s.openFault a).Balanced ∧ (s.openFault a).Crowded := by
  unfold State.openFault
  rw [hx]
  dsimp only
  rw [hab]
  dsimp only
  split
  · next hl =>
    obtain ⟨severity, hs⟩ := Health.faulty_of_ne hf
    refine ⟨(h.create hx hs hab hid hw hl).mono fun b hb => hb.2 hb.1, ?_⟩
    have empty : s.waiting = [] := by
      by_contra hne
      have := hc hne
      omega
    rw [State.createRecord_eq h.canonical.2.2.2 hx hs]
    exact fun hne => absurd empty hne
  · next hl =>
    refine ⟨?_, fun _ => Nat.le_antisymm h.capacity (Nat.not_lt.1 hl)⟩
    refine ((h.joinWaiting hx hw).mono fun b hb => hb.elim id id).settle fun y hy => ?_
    obtain rfl : { x with waiting := true } = y := by
      refine Option.some.inj (Eq.trans ?_ hy)
      refine Eq.trans ?_ (s.asset?_adjustAsset a a fun x => { x with waiting := true }).symm
      rw [if_pos rfl, hx]
      rfl
    exact .of_waiting hf hab hid rfl (List.mem_append_right _ List.mem_cons_self)

end

section
variable {s t : State} {a id : Nat} {x : Asset} (h : s.Ledger (· = a)) (hx : s.asset? a = some x) (hid : x.faultId = some id)
  (ht : t.tables = (s.discardRecord id a).tables) (htw : t.waiting = s.waiting)
include h hx hid ht htw

/-- The record an asset holds goes, its asset being HEALTHY or absorbed by then. -/
theorem State.Ledger.settle_discarded (hw : x.waiting = false) (hf : x.health ≠ .healthy → x.absorbedBy ≠ none)
    (htn : t.nextId = s.nextId) : t.Balanced := by
  have hs : s.faultIdOf a = some id := (State.faultIdOf_of_asset? hx).trans hid
  simp only [State.tables, Prod.mk.injEq] at ht
  obtain ⟨hta, hto, htp, htr⟩ := ht
  have assets (b : Nat) : t.asset? b = (s.discardRecord id a).asset? b := by rw [State.asset?, hta, State.asset?]
  have discarded := (h.discard hs).mono (free' := (· = a)) fun b hb => hb.elim (fun h => h) fun h => h
  have hx' : (s.discardRecord id a).asset? a = some { x with faultId := none } := by
    refine (s.asset?_adjustAsset a a fun x => { x with faultId := none }).trans ?_
    rw [if_pos rfl, hx]
    rfl
  have settled := discarded.settle_outside hx' rfl hw hf
  refine settled.of_same (settled.canonical.of_tables ?_) (fun b => by rw [assets]) (fun b _ => by rw [assets])
    (.of_eq htr) (by rw [htr]) htw htn
  simp only [State.tables, hta, hto, htp, htr]

/-- With it gone, the table has room for one more at most if assets wait. -/
theorem State.Ledger.length_discarded (hcrowd : s.Crowded) (hne : t.waiting ≠ []) :
    t.records.length + 1 = Config.recordCapacity := by
  have hs : s.faultIdOf a = some id := (State.faultIdOf_of_asset? hx).trans hid
  rw [htw] at hne
  have full := hcrowd hne
  have less := Table.length_le_length_del h.canonical.2.2.2 id
  obtain ⟨r, hr, -⟩ := h.record hs
  have lt : (s.records.del id).length < s.records.length :=
    Table.length_del_lt ((Table.has_iff _ _).2 (by rw [hr]; exact nofun))
  simp only [State.tables, Prod.mk.injEq] at ht
  obtain ⟨-, -, -, htr⟩ := ht
  rw [show t.records = s.records.del id from htr]
  omega

end

/-- Then the waiting list is served (R111). -/
theorem State.Ledger.serve_discarded {s t : State} {a id : Nat} {x : Asset} (h : s.Ledger (· = a)) (hcrowd : s.Crowded)
    (hx : s.asset? a = some x) (hid : x.faultId = some id) (hw : x.waiting = false)
    (hf : x.health ≠ .healthy → x.absorbedBy ≠ none)
    (ht : t.tables = (s.discardRecord id a).tables) (htw : t.waiting = s.waiting) (htn : t.nextId = s.nextId) :
    t.serveWaiting.Balanced ∧ t.serveWaiting.Crowded :=
  State.Balanced.serveWaiting (h.settle_discarded hx hid ht htw hw hf htn) (h.length_discarded hx hid ht htw hcrowd)

/-! ## Samples (R69 to R73, R102 to R109) -/

/-- An asset with the condition and the integrator of a sample. -/
def Asset.conditioned (x : Asset) (i : Nat) (h : Health) : Asset := { x with integrator := i, health := h }

theorem State.putAsset_eq_adjust {s : State} (hw : s.assets.wf = true) {a : Nat} {x : Asset} (hx : s.asset? a = some x)
    (f : Asset → Asset) : s.putAsset a (f x) = s.adjustAsset a f := by
  rw [State.putAsset, State.adjustAsset, Table.adjust_eq_put hw hx]

/-- What a sample of a present asset comes to: its condition stands, or it becomes FAULTY, recovers, or worsens, each with
its request. -/
theorem State.sample_cases {s : State} (hw : s.assets.wf = true) {a : Nat} {x : Asset} (hx : s.asset? a = some x) :
    ∃ i h, (h = x.health ∧ s.sample a = s.adjustAsset a fun x => x.conditioned i h)
      ∨ (x.health = .healthy ∧ h ≠ .healthy ∧ s.sample a = (s.adjustAsset a fun x => x.conditioned i h).openFault a)
      ∨ (x.health ≠ .healthy ∧ h = .healthy ∧ s.sample a = (s.adjustAsset a fun x => x.conditioned i h).becameHealthy a)
      ∨ (x.health = .faulty .degraded ∧ h = .faulty .fail
        ∧ s.sample a = (s.adjustAsset a fun x => x.conditioned i h).severityRaised a) := by
  have sampled : s.sample a = (s.putAsset a (x.sampled (s.faultProfile x.config.faultProfile) (s.worstCondition a x))).handChange
      a x.health (x.sampled (s.faultProfile x.config.faultProfile) (s.worstCondition a x)).health := by
    rw [State.sample, hx]
  generalize s.faultProfile x.config.faultProfile = p at sampled
  generalize s.worstCondition a x = w at sampled
  refine ⟨integratorStep p w x.integrator, healthStep p w (integratorStep p w x.integrator) x.health, ?_⟩
  have put : s.putAsset a (x.sampled p w) = s.adjustAsset a fun x' =>
      x'.conditioned (integratorStep p w x.integrator) (healthStep p w (integratorStep p w x.integrator) x.health) :=
    State.putAsset_eq_adjust hw hx fun x' =>
      x'.conditioned (integratorStep p w x.integrator) (healthStep p w (integratorStep p w x.integrator) x.health)
  rw [put] at sampled
  simp only [Asset.sampled] at sampled
  generalize integratorStep p w x.integrator = i at sampled ⊢
  rw [sampled]
  unfold healthStep
  cases x.health with
  | healthy =>
    dsimp only
    split
    · exact .inr (.inl ⟨rfl, nofun, rfl⟩)
    · exact .inl ⟨rfl, rfl⟩
  | faulty severity =>
    dsimp only
    split
    · exact .inr (.inr (.inl ⟨nofun, rfl, rfl⟩))
    · split
      · cases severity with
        | degraded => exact .inr (.inr (.inr ⟨rfl, rfl, rfl⟩))
        | fail => exact .inl ⟨rfl, rfl⟩
      · cases severity <;> exact .inl ⟨rfl, rfl⟩

theorem State.sample_absent {s : State} {a : Nat} (hx : s.asset? a = none) : s.sample a = s := by rw [State.sample, hx]

/-- An asset after a change of its own. -/
theorem State.asset?_adjustAsset_self {s : State} {a : Nat} {x : Asset} (hx : s.asset? a = some x) (f : Asset → Asset) :
    (s.adjustAsset a f).asset? a = some (f x) := by rw [State.asset?_adjustAsset, if_pos rfl, hx]; rfl

theorem State.asset?_adjustAsset_of_ne {s : State} {a b : Nat} (hb : b ≠ a) (f : Asset → Asset) :
    (s.adjustAsset a f).asset? b = s.asset? b := by rw [State.asset?_adjustAsset, if_neg hb]

/-- A record whose fault has worsened (R105). -/
def State.worsened (s : State) (r : FaultRecord) : FaultRecord := { s.refreshed { r with severity := .fail } with changeDue := true }

theorem State.onRecordOf_get? {s : State} {a id : Nat} {r : FaultRecord} (hid : s.faultIdOf a = some id)
    (hr : s.records.get? id = some r) (f : FaultRecord → FaultRecord) : (s.onRecordOf a f).records.get? id = some (f r) := by
  rw [State.onRecordOf, hid]
  dsimp only
  rw [State.adjustRecord, State.setRecords_records, Table.get?_adjust, if_pos rfl, hr]
  rfl

section
variable {s : State} (h : s.Balanced)
include h

/-- An entry opened by a change of condition or absorber. -/
theorem State.Balanced.opened (a : Nat) {f : Asset → Asset} (hf : ∀ x, (f x).place = x.place) :
    (s.adjustAsset a f).Ledger (· = a) :=
  (h.mono (free' := (· = a)) fun _ hb => hb.elim).mark rfl hf

/-- Of the requests of a recovery, the one of the asset's place (R107 to R109). -/
theorem State.Balanced.becameHealthy {a : Nat} {x : Asset} (hx : s.asset? a = some x) (hc : s.Crowded)
    (hf : x.health ≠ .healthy) (i : Nat) :
    let t := s.adjustAsset a fun x => x.conditioned i .healthy
    (t.becameHealthy a).Balanced ∧ (t.becameHealthy a).Crowded := by
  intro t
  have hy := State.asset?_adjustAsset_self hx fun x => x.conditioned i .healthy
  have opened := h.opened a (f := fun x => x.conditioned i .healthy) fun _ => rfl
  have crowded : t.Crowded := hc.of_same rfl rfl
  unfold State.becameHealthy
  rw [hy]
  dsimp only
  cases (h.assetLaw hx).placed with
  | healthy hf' => exact absurd hf' hf
  | absorbed z _ hab hid hw =>
    rw [show (x.conditioned i .healthy).faultId = none from hid, show (x.conditioned i .healthy).absorbedBy = some z from hab]
    dsimp only
    refine ⟨(opened.lowerOn z).settle_outside ((State.onRecordOf_asset? _ _ _ _).trans hy) hid hw fun hn => absurd rfl hn,
      crowded.of_same (State.onRecordOf_waiting _ _ _) (State.onRecordOf_length _ _ _)⟩
  | holding own _ hab hid hw =>
    rw [show (x.conditioned i .healthy).faultId = some own from hid]
    dsimp only
    rw [State.clearRecord_eq]
    exact opened.serve_discarded crowded hy hid hw (fun hn => absurd rfl hn) rfl rfl rfl
  | waits _ hab hid hw =>
    rw [show (x.conditioned i .healthy).faultId = none from hid, show (x.conditioned i .healthy).absorbedBy = none from hab]
    dsimp only
    rw [if_pos (by exact hw)]
    have left := (opened.leaveWaiting (a := a) (by rw [hy]; exact nofun)).mono (free' := (· = a)) fun b hb => hb.elim (fun h => h) fun h => h
    refine ⟨left.settle_outside (State.asset?_leaveWaiting hy) hid rfl fun hn => absurd rfl hn, fun hne => ?_⟩
    exact hc fun hnil => hne (by
      rw [show (t.leaveWaiting a).waiting = s.waiting.filter fun b => b ≠ a from rfl, hnil]
      rfl)

/-- A worsened fault shows in the record its asset holds, if it holds one (R105). -/
theorem State.Balanced.severityRaised {a : Nat} {x : Asset} (hx : s.asset? a = some x) (hf : x.health ≠ .healthy) (i : Nat) :
    ((s.adjustAsset a fun x => x.conditioned i (.faulty .fail)).severityRaised a).Balanced := by
  have hy := State.asset?_adjustAsset_self hx fun x => x.conditioned i (.faulty .fail)
  have opened := h.opened a (f := fun x => x.conditioned i (.faulty .fail)) fun _ => rfl
  generalize s.adjustAsset a (fun x => x.conditioned i (.faulty .fail)) = t at hy opened
  have raised := opened.onRecordOf a (f := t.worsened) fun r => ⟨State.refreshed_asset _ _, fun ha => absurd rfl ha⟩
  have hy' := (t.onRecordOf_asset? a t.worsened a).trans hy
  refine raised.settle fun y hy'' => ?_
  obtain rfl := Option.some.inj (hy'.symm.trans hy'')
  cases (h.assetLaw hx).placed with
  | healthy hf' => exact absurd hf' hf
  | absorbed z _ hab hid hw =>
    exact .of_outside hid hw (raised.open_asset hy' hw) fun _ => by
      rw [show (x.conditioned i (.faulty .fail)).absorbedBy = some z from hab]
      exact nofun
  | waits _ hab hid hw => exact .of_waiting nofun hab hid hw ((raised.flags hy').1 hw)
  | holding own _ hab hid hw =>
    have hown := (State.faultIdOf_of_asset? hy).trans hid
    obtain ⟨r, hr, hra⟩ := opened.record hown
    refine ⟨fun id hid' => ⟨hab, hw, t.worsened r, ?_, ?_, ?_⟩, fun hw' => ?_, raised.flags hy', fun _ => .inl ?_⟩
    · obtain rfl : own = id := Option.some.inj (hid.symm.trans hid')
      exact State.onRecordOf_get? hown hr _
    · exact (State.refreshed_asset _ _).trans hra
    · exact congrArg Health.faulty (t.refreshed_severity { r with severity := .fail }).symm
    · exact absurd hw' (by simp [Asset.conditioned, hw])
    · rw [show (x.conditioned i (.faulty .fail)).faultId = some own from hid]
      exact nofun

/-- Samples keep the law. -/
theorem State.Balanced.sample (hc : s.Crowded) (a : Nat) : (s.sample a).Balanced ∧ (s.sample a).Crowded := by
  cases hx : s.asset? a with
  | none =>
    rw [State.sample_absent hx]
    exact ⟨h, hc⟩
  | some x =>
    obtain ⟨i, k, ⟨rfl, he⟩ | ⟨hf, hk, he⟩ | ⟨hf, rfl, he⟩ | ⟨hf, rfl, he⟩⟩ := State.sample_cases h.canonical.1 hx
    · rw [he]
      refine ⟨(h.opened a (f := fun y => y.conditioned i x.health) fun _ => rfl).settle fun y hy => ?_, hc.of_same rfl rfl⟩
      obtain rfl := Option.some.inj ((State.asset?_adjustAsset_self hx _).symm.trans hy)
      have law := h.assetLaw hx
      exact law
    · have hy := State.asset?_adjustAsset_self hx fun y => y.conditioned i k
      have opened := h.opened a (f := fun y => y.conditioned i k) fun _ => rfl
      have crowded : (s.adjustAsset a fun y => y.conditioned i k).Crowded := hc.of_same rfl rfl
      rw [he]
      cases (h.assetLaw hx).placed with
      | healthy _ hid hw =>
        cases hab : x.absorbedBy with
        | none => exact opened.openFault hy hk hab hid hw crowded
        | some z =>
          have raise : (s.adjustAsset a fun y => y.conditioned i k).openFault a
              = (s.adjustAsset a fun y => y.conditioned i k).raiseOn z := by
            rw [State.openFault, hy]
            dsimp only
            rw [show (x.conditioned i k).absorbedBy = some z from hab]
          rw [raise]
          refine ⟨(opened.raiseOn z).settle_outside ((State.onRecordOf_asset? _ _ _ _).trans hy) hid hw fun _ => ?_,
            crowded.of_same (State.onRecordOf_waiting _ _ _) (State.onRecordOf_length _ _ _)⟩
          rw [show (x.conditioned i k).absorbedBy = some z from hab]
          exact nofun
      | absorbed _ hf' | holding _ hf' | waits hf' => exact absurd hf hf'
    · rw [he]
      exact h.becameHealthy hx hc hf i
    · rw [he]
      exact ⟨h.severityRaised hx (by rw [hf]; exact nofun) i,
        Crowded.of_same (s := s) hc (State.onRecordOf_waiting _ _ _) (State.onRecordOf_length _ _ _)⟩

/-- A CLOSE keeps the law (R118). -/
theorem State.Balanced.close (hc : s.Crowded) {id : Nat} {r : FaultRecord} (hr : s.records.get? id = some r) :
    let t := (s.adjustAsset r.asset fun x => { x with integrator := 0, health := .healthy }).clearRecord id r.asset true
    t.Balanced ∧ t.Crowded := by
  obtain ⟨x, hx, hid⟩ := State.faultIdOf_eq_some.1 (h.holder hr)
  obtain ⟨-, hw, -⟩ := (h.assetLaw hx).1 id hid
  have hy := State.asset?_adjustAsset_self hx fun x => x.conditioned 0 .healthy
  have opened := h.opened r.asset (f := fun x => x.conditioned 0 .healthy) fun _ => rfl
  intro t
  have cleared := State.clearRecord_eq (s.adjustAsset r.asset fun x => x.conditioned 0 .healthy) id r.asset true
  rw [show t = _ from cleared]
  exact opened.serve_discarded (hc.of_same rfl rfl) hy hid hw (fun hn => absurd rfl hn) rfl rfl rfl

end

/-! ## Visits (R132, R134, R138) -/

section
variable {s : State} (h : s.Balanced)
include h

/-- What a visit of an ABSORB walk does to a descendant in each of its places (R132). -/
theorem State.Balanced.absorbAt_cases {d : Nat} {x : Asset} (hx : s.asset? d = some x) (a id : Nat) :
    (x.absorbedBy = some a ∧ s.absorbAt a id d = s)
      ∨ x.absorbedBy ≠ some a ∧
        ((x.health = .healthy ∧ x.faultId = none ∧ x.waiting = false ∧ s.absorbAt a id d = s.setAbsorber d (some a))
        ∨ (∃ z, x.health ≠ .healthy ∧ x.absorbedBy = some z ∧ x.faultId = none ∧ x.waiting = false
            ∧ s.absorbAt a id d = ((s.setAbsorber d (some a)).lowerOn z).raiseOn a)
        ∨ (∃ own, x.health ≠ .healthy ∧ x.absorbedBy = none ∧ x.faultId = some own ∧ x.waiting = false
            ∧ s.absorbAt a id d = ((s.setAbsorber d (some a)).raiseOn a).absorbRecord own d id)
        ∨ (x.health ≠ .healthy ∧ x.absorbedBy = none ∧ x.faultId = none ∧ x.waiting = true
            ∧ s.absorbAt a id d = ((s.setAbsorber d (some a)).raiseOn a).leaveWaiting d)) := by
  unfold State.absorbAt
  rw [hx]
  dsimp only
  by_cases hab : x.absorbedBy = some a
  · exact .inl ⟨hab, if_pos hab⟩
  · refine .inr ⟨hab, ?_⟩
    rw [if_neg hab]
    cases (h.assetLaw hx).placed with
    | healthy hf hid hw =>
      refine .inl ⟨hf, hid, hw, ?_⟩
      rw [hid, hw, Asset.faulty_eq_false hf]
      rfl
    | absorbed z hf hz hid hw =>
      refine .inr (.inl ⟨z, hf, hz, hid, hw, ?_⟩)
      rw [hid, hw, hz, Asset.faulty_eq_true hf]
      rfl
    | holding own hf hz hid hw =>
      refine .inr (.inr (.inl ⟨own, hf, hz, hid, hw, ?_⟩))
      rw [hid, hw, hz, Asset.faulty_eq_true hf]
      rfl
    | waits hf hz hid hw =>
      refine .inr (.inr (.inr ⟨hf, hz, hid, hw, ?_⟩))
      rw [hid, hw, hz, Asset.faulty_eq_true hf]
      rfl

/-- What a visit of the rebuild does to an asset below a holder (R138). -/
theorem State.Balanced.rebuildAt_under {v : Nat} {x : Asset} (hx : s.asset? v = some x) {a : Nat}
    (ha : s.highestHolder v = some a) :
    (x.health = .healthy ∧ x.faultId = none ∧ x.waiting = false ∧ s.rebuildAt v = s.setAbsorber v (some a))
      ∨ (∃ z, x.health ≠ .healthy ∧ x.absorbedBy = some z ∧ x.faultId = none ∧ x.waiting = false
          ∧ s.rebuildAt v = (s.setAbsorber v (some a)).raiseOn a)
      ∨ (∃ own, x.health ≠ .healthy ∧ x.absorbedBy = none ∧ x.faultId = some own ∧ x.waiting = false
          ∧ s.rebuildAt v
            = ((s.setAbsorber v (some a)).absorbRecord own v (((s.setAbsorber v (some a)).faultIdOf a).getD 0)).raiseOn a)
      ∨ (x.health ≠ .healthy ∧ x.absorbedBy = none ∧ x.faultId = none ∧ x.waiting = true
          ∧ s.rebuildAt v = ((s.setAbsorber v (some a)).leaveWaiting v).raiseOn a) := by
  unfold State.rebuildAt
  rw [hx]
  dsimp only
  rw [ha]
  dsimp only
  unfold State.rebuildUnder
  cases (h.assetLaw hx).placed with
  | healthy hf hid hw =>
    refine .inl ⟨hf, hid, hw, ?_⟩
    rw [hid, hw, Asset.faulty_eq_false hf]
    rfl
  | absorbed z hf hz hid hw =>
    refine .inr (.inl ⟨z, hf, hz, hid, hw, ?_⟩)
    rw [hid, hw, Asset.faulty_eq_true hf]
    rfl
  | holding own hf hz hid hw =>
    refine .inr (.inr (.inl ⟨own, hf, hz, hid, hw, ?_⟩))
    rw [hid, hw, Asset.faulty_eq_true hf]
    rfl
  | waits hf hz hid hw =>
    refine .inr (.inr (.inr ⟨hf, hz, hid, hw, ?_⟩))
    rw [hid, hw, Asset.faulty_eq_true hf]
    rfl

end

/-- What a visit of the rebuild does to an asset that no holder is above (R138). -/
theorem State.rebuildAt_alone {s : State} {v : Nat} {x : Asset} (hx : s.asset? v = some x) (ha : s.highestHolder v = none) :
    s.rebuildAt v = if x.health ≠ .healthy ∧ x.faultId = none ∧ x.waiting = false then (s.setAbsorber v none).openFault v
      else s.setAbsorber v none := by
  unfold State.rebuildAt
  rw [hx]
  dsimp only
  rw [ha]
  simp [Asset.faulty]

/-- What a visit of a RELEASE walk does to a descendant (R134). -/
theorem State.releaseAt_eq {s : State} {d : Nat} {x : Asset} (hx : s.asset? d = some x) (a : Nat) :
    s.releaseAt a d = if s.releases a x = true then
        (match s.highestHolder d with
        | some z => if x.health = .healthy then s.setAbsorber d (some z) else (s.setAbsorber d (some z)).raiseOn z
        | none => if x.health = .healthy then s.setAbsorber d none else (s.setAbsorber d none).openFault d)
      else s := by
  unfold State.releaseAt
  rw [hx]
  dsimp only
  split
  · cases s.highestHolder d <;> (by_cases hf : x.health = .healthy <;> simp [hf, Asset.faulty])
  · rfl

theorem State.releases_iff {s : State} {a : Nat} {x : Asset} :
    s.releases a x = true ↔ ∃ z, x.absorbedBy = some z ∧ (z = a ∨ s.faultIdOf z = none) := by
  unfold State.releases
  cases x.absorbedBy with
  | none => simp
  | some z => simp

/-! ## The law under a visit -/

theorem State.asset?_setAbsorber {s : State} {d : Nat} {x : Asset} (hx : s.asset? d = some x) (z : Option Nat) :
    (s.setAbsorber d z).asset? d = some { x with absorbedBy := z } :=
  State.asset?_adjustAsset_self hx fun x => { x with absorbedBy := z }

theorem State.Crowded.onRecordOf {s : State} (h : s.Crowded) (a : Nat) (f : FaultRecord → FaultRecord) :
    (s.onRecordOf a f).Crowded := h.of_same (s.onRecordOf_waiting a f) (s.onRecordOf_length a f)

theorem State.Crowded.leaveWaiting {s : State} (h : s.Crowded) (a : Nat) : (s.leaveWaiting a).Crowded := fun hne =>
  h fun hnil => hne (by rw [show (s.leaveWaiting a).waiting = s.waiting.filter fun b => b ≠ a from rfl, hnil]; rfl)

section
variable {s : State} {a : Nat} {x : Asset} (h : s.Ledger (· = a)) (hx : s.asset? a = some x)
include h hx

/-- The wait of an entry that is absorbed ends. -/
theorem State.Ledger.settle_left (hid : x.faultId = none) (hab : x.absorbedBy ≠ none) : (s.leaveWaiting a).Balanced := by
  have left := (h.leaveWaiting (a := a) (by rw [hx]; exact nofun)).mono (free' := (· = a)) fun b hb =>
    hb.elim (fun h => h) fun h => h
  exact left.settle_outside (State.asset?_leaveWaiting hx) hid rfl fun _ => hab

/-- The record of an entry that is absorbed is absorbed too (R113). -/
theorem State.Ledger.settle_absorbed (hc : s.Crowded) {own : Nat} (hid : x.faultId = some own) (hw : x.waiting = false)
    (hab : x.absorbedBy ≠ none) (id : Nat) : (s.absorbRecord own a id).Balanced ∧ (s.absorbRecord own a id).Crowded :=
  h.serve_discarded hc hx hid hw (fun _ => hab) rfl rfl rfl

end

section
variable {s : State} (h : s.Balanced) (hc : s.Crowded)
include h hc

theorem State.Balanced.absorbAt (a id d : Nat) : (s.absorbAt a id d).Balanced ∧ (s.absorbAt a id d).Crowded := by
  cases hx : s.asset? d with
  | none =>
    rw [State.absorbAt, hx]
    exact ⟨h, hc⟩
  | some x =>
    have named := h.opened d (f := fun x => { x with absorbedBy := some a }) fun _ => rfl
    have hy := State.asset?_setAbsorber hx (some a)
    have crowded : (s.setAbsorber d (some a)).Crowded := hc.of_same rfl rfl
    rcases h.absorbAt_cases hx a id with ⟨-, he⟩ | ⟨-, ⟨hf, hid, hw, he⟩ | ⟨z, hf, -, hid, hw, he⟩ | ⟨own, hf, -, hid, hw, he⟩
      | ⟨hf, -, hid, hw, he⟩⟩
    · rw [he]
      exact ⟨h, hc⟩
    · rw [he]
      exact ⟨named.settle_outside hy hid hw fun _ => nofun, crowded⟩
    · rw [he]
      refine ⟨((named.lowerOn z).raiseOn a).settle_outside (x := { x with absorbedBy := some a }) ?_ hid hw fun _ => nofun, (crowded.onRecordOf _ _).onRecordOf _ _⟩
      rw [State.raiseOn_asset?, State.lowerOn_asset?]
      exact hy
    · rw [he]
      exact (named.raiseOn a).settle_absorbed ((State.onRecordOf_asset? _ _ _ _).trans hy) (crowded.onRecordOf _ _) hid hw
        nofun id
    · rw [he]
      exact ⟨(named.raiseOn a).settle_left ((State.onRecordOf_asset? _ _ _ _).trans hy) hid nofun,
        (crowded.onRecordOf _ _).leaveWaiting d⟩

theorem State.Balanced.rebuildAt (v : Nat) : (s.rebuildAt v).Balanced ∧ (s.rebuildAt v).Crowded := by
  cases hx : s.asset? v with
  | none =>
    rw [State.rebuildAt, hx]
    exact ⟨h, hc⟩
  | some x =>
    cases ha : s.highestHolder v with
    | none =>
      have named := h.opened v (f := fun x => { x with absorbedBy := none }) fun _ => rfl
      have hy := State.asset?_setAbsorber hx none
      have crowded : (s.setAbsorber v none).Crowded := hc.of_same rfl rfl
      rw [State.rebuildAt_alone hx ha]
      split
      · next hf => exact named.openFault hy hf.1 rfl hf.2.1 hf.2.2 crowded
      · next hf =>
        refine ⟨named.settle fun y hy' => ?_, crowded⟩
        obtain rfl := Option.some.inj (hy.symm.trans hy')
        obtain ⟨hheld, hwaits, hflag, -⟩ := h.assetLaw hx
        refine ⟨fun id hid => ⟨rfl, (hheld id hid).2⟩, fun hw => ⟨(hwaits hw).1, rfl, (hwaits hw).2.2⟩, hflag, fun hfy => ?_⟩
        by_contra hn
        obtain ⟨hid, hn⟩ := not_or.1 hn
        obtain ⟨-, hw⟩ := not_or.1 hn
        exact hf ⟨hfy, not_not.1 hid, by simpa using hw⟩
    | some a =>
      have named := h.opened v (f := fun x => { x with absorbedBy := some a }) fun _ => rfl
      have hy := State.asset?_setAbsorber hx (some a)
      have crowded : (s.setAbsorber v (some a)).Crowded := hc.of_same rfl rfl
      rcases h.rebuildAt_under hx ha with ⟨hf, hid, hw, he⟩ | ⟨z, hf, -, hid, hw, he⟩ | ⟨own, hf, -, hid, hw, he⟩
        | ⟨hf, -, hid, hw, he⟩
      · rw [he]
        exact ⟨named.settle_outside hy hid hw fun _ => nofun, crowded⟩
      · rw [he]
        exact ⟨(named.raiseOn a).settle_outside ((State.onRecordOf_asset? _ _ _ _).trans hy) hid hw fun _ => nofun,
          crowded.onRecordOf _ _⟩
      · rw [he]
        obtain ⟨hb, hc'⟩ := named.settle_absorbed hy crowded hid hw nofun
          (((s.setAbsorber v (some a)).faultIdOf a).getD 0)
        exact ⟨hb.raiseOn a, hc'.onRecordOf _ _⟩
      · rw [he]
        exact ⟨(named.settle_left hy hid nofun).raiseOn a, (crowded.leaveWaiting v).onRecordOf _ _⟩

theorem State.Balanced.releaseAt (a d : Nat) : (s.releaseAt a d).Balanced ∧ (s.releaseAt a d).Crowded := by
  cases hx : s.asset? d with
  | none =>
    rw [State.releaseAt, hx]
    exact ⟨h, hc⟩
  | some x =>
    rw [State.releaseAt_eq hx]
    split
    · next hr =>
      obtain ⟨z, hz, -⟩ := State.releases_iff.1 hr
      obtain ⟨hid, hw⟩ : x.faultId = none ∧ x.waiting = false := by
        cases (h.assetLaw hx).placed with
        | healthy _ hid hw | absorbed _ _ _ hid hw => exact ⟨hid, hw⟩
        | holding _ _ hab | waits _ hab =>
          rw [hz] at hab
          cases hab
      have named (z : Option Nat) := h.opened d (f := fun x => { x with absorbedBy := z }) fun _ => rfl
      have crowded (z : Option Nat) : (s.setAbsorber d z).Crowded := hc.of_same rfl rfl
      split
      · next z _ =>
        split
        · exact ⟨(named (some z)).settle_outside (State.asset?_setAbsorber hx _) hid hw fun _ => nofun, crowded _⟩
        · exact ⟨((named (some z)).raiseOn z).settle_outside
            ((State.onRecordOf_asset? _ _ _ _).trans (State.asset?_setAbsorber hx _)) hid hw fun _ => nofun, (crowded _).onRecordOf _ _⟩
      · split
        · next hf => exact ⟨(named none).settle_outside (State.asset?_setAbsorber hx _) hid hw fun hn => absurd hf hn, crowded _⟩
        · next hf => exact (named none).openFault (State.asset?_setAbsorber hx _) hf rfl hid hw (crowded _)
    · exact ⟨h, hc⟩

end

end Sys2Proof.Machine
end

section
/-! PROOFS. What the laws of the fault table and of correlation read of a move: most moves leave all of it, and the others
are told apart once (`Move.event`), so that each of these laws is proved event by event. -/

namespace Sys2Proof.Machine

/-! ## What the laws read -/

/-- What the laws read of a record. -/
def FaultRecord.link (r : FaultRecord) : Nat × Severity := (r.asset, r.severity)

/-- Every asset keeps its condition and its place, and every record its asset and severity. -/
structure State.Alike (s t : State) : Prop where
  standing : ∀ a, (t.asset? a).map Asset.standing = (s.asset? a).map Asset.standing
  links : ∀ id, (t.records.get? id).map FaultRecord.link = (s.records.get? id).map FaultRecord.link
  length : t.records.length = s.records.length
  waiting : t.waiting = s.waiting
  nextId : t.nextId = s.nextId

/-- Every record keeps its n. -/
def State.SameCounts (s t : State) : Prop :=
  ∀ id, (t.records.get? id).map FaultRecord.absorbed = (s.records.get? id).map FaultRecord.absorbed

/-- The correlation unit's own fields, and the mode, which its laws are read under. -/
def State.correlation (s : State) : List WalkEntry × Option Walk × Mode × Option Rebuild :=
  (s.walkList, s.walk, s.mode, s.rebuild)

theorem State.Alike.refl (s : State) : s.Alike s := ⟨fun _ => rfl, fun _ => rfl, rfl, rfl, rfl⟩

theorem State.Alike.trans {s t u : State} (h : s.Alike t) (k : t.Alike u) : s.Alike u :=
  ⟨fun a => (k.standing a).trans (h.standing a), fun id => (k.links id).trans (h.links id), k.length.trans h.length,
    k.waiting.trans h.waiting, k.nextId.trans h.nextId⟩

/-- The fields that the ledger is read from. -/
def State.books (s : State) : Table Asset × Table FaultRecord × List Nat × Nat := (s.assets, s.records, s.waiting, s.nextId)

theorem State.Alike.of_books {s t : State} (h : t.books = s.books) : s.Alike t := by
  simp only [State.books, Prod.mk.injEq] at h
  obtain ⟨ha, hr, hw, hn⟩ := h
  exact ⟨fun a => by rw [State.asset?, ha, State.asset?], fun id => by rw [hr], by rw [hr], hw, hn⟩

theorem State.SameCounts.of_books {s t : State} (h : t.books = s.books) : s.SameCounts t := by
  simp only [State.books, Prod.mk.injEq] at h
  exact fun id => by rw [h.2.1]

/-- Assets may change in other fields. -/
theorem State.Alike.mapAssets {s t : State} (f : Nat → Asset → Asset) (hf : ∀ a x, (f a x).standing = x.standing)
    (ha : t.assets = s.assets.mapAll f) (hr : t.records = s.records) (hw : t.waiting = s.waiting)
    (hn : t.nextId = s.nextId) : s.Alike t := by
  refine ⟨fun a => ?_, fun id => by rw [hr], by rw [hr], hw, hn⟩
  rw [State.asset?, ha, Table.get?_mapAll, State.asset?]
  cases s.assets.get? a with
  | none => rfl
  | some x => exact congrArg some (hf a x)

theorem State.Alike.putAsset {s : State} {a : Nat} {x y : Asset} (hx : s.asset? a = some x) (hy : y.standing = x.standing) :
    s.Alike (s.putAsset a y) := by
  refine ⟨fun b => ?_, fun _ => rfl, rfl, rfl, rfl⟩
  by_cases hb : b = a
  · subst hb
    rw [State.asset?, State.putAsset, State.setAssets_assets, Table.get?_put_self, hx]
    exact congrArg some hy
  · rw [State.asset?, State.putAsset, State.setAssets_assets, Table.get?_put_of_ne _ _ hb, State.asset?]

/-- Records may change in other fields. -/
theorem State.Alike.mapRecords {s t : State} (f : Nat → FaultRecord → FaultRecord) (hf : ∀ id r, (f id r).link = r.link)
    (hr : t.records = s.records.mapAll f) (ha : t.assets = s.assets) (hw : t.waiting = s.waiting)
    (hn : t.nextId = s.nextId) : s.Alike t := by
  refine ⟨fun a => by rw [State.asset?, ha, State.asset?], fun id => ?_, by rw [hr, Table.length_mapAll], hw, hn⟩
  rw [hr, Table.get?_mapAll]
  cases s.records.get? id with
  | none => rfl
  | some r => exact congrArg some (hf id r)

theorem State.SameCounts.mapRecords {s t : State} (f : Nat → FaultRecord → FaultRecord)
    (hf : ∀ id r, (f id r).absorbed = r.absorbed) (hr : t.records = s.records.mapAll f) : s.SameCounts t := by
  intro id
  rw [hr, Table.get?_mapAll]
  cases s.records.get? id with
  | none => rfl
  | some r => exact congrArg some (hf id r)

theorem FaultRecord.link_eq {r r' : FaultRecord} (ha : r'.asset = r.asset) (hs : r'.severity = r.severity) :
    r'.link = r.link := by rw [FaultRecord.link, ha, hs, FaultRecord.link]

theorem State.refreshed_link (s : State) (r : FaultRecord) : (s.refreshed r).link = r.link :=
  FaultRecord.link_eq (s.refreshed_asset r) (s.refreshed_severity r)

/-- Escalation changes s, m and U alone (R147). -/
theorem State.escalated_same (s : State) (r : FaultRecord) :
    (s.escalated r).link = r.link ∧ (s.escalated r).absorbed = r.absorbed := by
  unfold State.escalated
  split
  · exact ⟨rfl, rfl⟩
  · dsimp only
    split
    · split
      · exact ⟨rfl, rfl⟩
      · split
        · exact ⟨s.refreshed_link _, s.refreshed_absorbed _⟩
        · exact ⟨rfl, rfl⟩
    · exact ⟨rfl, rfl⟩

/-! ## Events -/

/-- What a move is to the laws of the fault table and of correlation. -/
inductive Event : State → State → Prop
  | quiet {s t : State} (h : s.Alike t) (hn : s.SameCounts t) (htree : t.tree = s.tree)
      (hc : t.correlation = s.correlation) : Event s t
  | maintained {s t : State} (h : s.Alike t) (hn : s.SameCounts t) (hm : t.mode = .maintain) : Event s t
  | entering {s t : State} (h : s.Alike t) (hn : ∀ id r, t.records.get? id = some r → r.absorbed = 0)
      (htree : t.tree = s.tree) (hm : t.mode = .entering) (hb : ∃ owed, t.rebuild = some { last := none, owed := owed }) :
      Event s t
  | entered {s t : State} {b : Rebuild} (h : s.Alike t) (hn : s.SameCounts t) (htree : t.tree = s.tree)
      (hm : s.mode = .entering) (hb : s.rebuild = some b) (hv : s.rebuildNext b.last = none)
      (hc : t.correlation = (s.walkList, s.walk, .run, none)) : Event s t
  | created (s : State) {a : Nat} {config : AssetConfig} (ha : a < Config.assetCapacity) (hx : s.asset? a = none)
      (hm : s.mode ≠ .entering) (hp : s.parentPresent config.parent = true)
      (hc : s.parentConflict a none config.parent = false) :
      Event s (s.putAsset a (s.newAsset config))
  | erased (s : State) {a : Nat} {x : Asset} (hx : s.asset? a = some x) (hm : s.mode ≠ .entering)
      (he : s.eraseConflict a x = false) : Event s (s.setAssets (s.assets.del a))
  | sample (s : State) (a : Nat) (hm : s.mode = .run) : Event s (s.sample a)
  | close (s : State) {id : Nat} {r : FaultRecord} (hm : s.mode = .run) (hr : s.records.get? id = some r) :
      Event s ((s.adjustAsset r.asset fun x => { x with integrator := 0, health := .healthy }).clearRecord id r.asset true)
  | beginWalk (s : State) : Event s s.beginWalk
  | absorbVisit (s : State) : Event s s.absorbVisit
  | releaseVisit (s : State) : Event s s.releaseVisit
  | rebuildVisit (s : State) {b : Rebuild} {v : Nat} (hm : s.mode = .entering) (hb : s.rebuild = some b)
      (hv : s.rebuildNext b.last = some v) : Event s ((s.rebuildAt v).setRebuild (some { b with last := some v }))
  | cleared {s t : State} (hx : ∀ a y, t.asset? a = some y → y.standing = (.healthy, none, none, false))
      (hr : t.records = []) (hw : t.waiting = []) (hn : t.nextId = 1) (hm : t.mode ≠ .entering) : Event s t

theorem Event.of_books {s t : State} (h : t.books = s.books) (hc : t.correlation = s.correlation) : Event s t :=
  .quiet (.of_books h) (.of_books h) (State.tree_of_assets (Prod.mk.inj h).1) hc

theorem Event.mapAssets {s t : State} (f : Nat → Asset → Asset)
    (hf : ∀ a x, (f a x).standing = x.standing ∧ (f a x).config = x.config) (ha : t.assets = s.assets.mapAll f)
    (hr : t.records = s.records) (hw : t.waiting = s.waiting) (hn : t.nextId = s.nextId)
    (hc : t.correlation = s.correlation) : Event s t :=
  .quiet (.mapAssets f (fun a x => (hf a x).1) ha hr hw hn) (fun id => by rw [hr])
    (State.tree_of_mapAll f ha fun a x => (hf a x).2) hc

theorem Event.mapRecords {s t : State} (f : Nat → FaultRecord → FaultRecord)
    (hf : ∀ id r, (f id r).link = r.link ∧ (f id r).absorbed = r.absorbed) (hr : t.records = s.records.mapAll f)
    (ha : t.assets = s.assets) (hw : t.waiting = s.waiting) (hn : t.nextId = s.nextId)
    (hc : t.correlation = s.correlation) : Event s t :=
  .quiet (.mapRecords f (fun id r => (hf id r).1) hr ha hw hn) (.mapRecords f (fun id r => (hf id r).2) hr)
    (State.tree_of_assets ha) hc

theorem Event.adjustRecord (s : State) (id : Nat) {f : FaultRecord → FaultRecord}
    (hf : ∀ r : FaultRecord, (f r).link = r.link ∧ (f r).absorbed = r.absorbed) : Event s (s.adjustRecord id f) := by
  refine Event.mapRecords (fun j r => if j = id then f r else r) (fun j r => ?_) (Table.adjust_eq_mapAll _ _ _) rfl rfl rfl rfl
  split
  · exact hf r
  · exact ⟨rfl, rfl⟩

theorem State.haltLine_books (s : State) (k : Fin 4) :
    (s.haltLine k).books = s.books ∧ (s.haltLine k).correlation = s.correlation := by
  obtain ⟨he, -⟩ | ⟨x, u, he, -, -⟩ := s.haltLine_eq k <;> rw [he] <;> exact ⟨rfl, rfl⟩

theorem State.endStorm_books (s : State) : s.endStorm.books = s.books ∧ s.endStorm.correlation = s.correlation := by
  unfold State.endStorm
  dsimp only
  split <;> exact ⟨rfl, rfl⟩

theorem State.lineTakes_books (s : State) (k : Fin 4) (o : Nat) (x : Outstation) (ended : Option Transaction) :
    (s.lineTakes k o x ended).books = s.books ∧ (s.lineTakes k o x ended).correlation = s.correlation := by
  unfold State.lineTakes
  dsimp only
  split <;> split <;> exact ⟨rfl, rfl⟩

theorem State.SameCounts.trans {s t u : State} (h : s.SameCounts t) (k : t.SameCounts u) : s.SameCounts u :=
  fun id => (k id).trans (h id)

theorem State.refreshOn_alike (s : State) (a : Nat) :
    s.Alike (s.refreshOn a) ∧ s.SameCounts (s.refreshOn a) ∧ (s.refreshOn a).correlation = s.correlation := by
  unfold State.refreshOn State.onRecordOf
  split
  · next id _ =>
    have same (j : Nat) (r : FaultRecord) : (if j = id then s.refreshed r else r).link = r.link
        ∧ (if j = id then s.refreshed r else r).absorbed = r.absorbed := by
      split
      · exact ⟨s.refreshed_link r, s.refreshed_absorbed r⟩
      · exact ⟨rfl, rfl⟩
    exact ⟨.mapRecords _ (fun j r => (same j r).1) (Table.adjust_eq_mapAll _ _ _) rfl rfl rfl,
      .mapRecords _ (fun j r => (same j r).2) (Table.adjust_eq_mapAll _ _ _), rfl⟩
  · exact ⟨.refl s, fun _ => rfl, rfl⟩

/-- An ASSET LOAD on a present asset (R10). -/
theorem State.storeAsset_alike {s : State} {a : Nat} {x : Asset} (hx : s.asset? a = some x) (config : AssetConfig) :
    s.Alike (s.storeAsset a config) ∧ s.SameCounts (s.storeAsset a config)
      ∧ (s.storeAsset a config).correlation = s.correlation := by
  have put : s.Alike (s.putAsset a (s.reconfigured x config)) := .putAsset hx rfl
  unfold State.storeAsset
  rw [hx]
  dsimp only
  split
  · obtain ⟨halike, hcounts, hcor⟩ := State.refreshOn_alike (s.putAsset a (s.reconfigured x config)) a
    exact ⟨(put.trans halike).trans (.of_books rfl), hcounts.trans (.of_books rfl), hcor⟩
  · exact ⟨put, fun _ => rfl, rfl⟩

/-- A put under a key that holds the same. -/
theorem Table.put_of_get? {α : Type} {t : Table α} (h : t.wf = true) {k : Nat} {x : α} (hx : t.get? k = some x) :
    t.put k x = t := by
  have kept := Table.adjust_eq_put h hx fun y => y
  rw [← kept, Table.adjust]
  exact (List.map_congr_left (g := fun e => e) fun e _ => by split <;> rfl).trans t.map_id'

theorem State.tree_keys (s : State) : s.tree.map Prod.fst = s.assets.map Prod.fst := by simp [State.tree]

/-- A record after a change of a fault profile (R67): the profiles and the assets are those of `s`. -/
def State.repriced (s : State) (p : Fin 16) (r : FaultRecord) : FaultRecord :=
  match s.asset? r.asset with
  | some x => if x.config.faultProfile = p then s.refreshed r else r
  | none => r

theorem State.repriced_same (s : State) (p : Fin 16) (r : FaultRecord) :
    (s.repriced p r).link = r.link ∧ (s.repriced p r).absorbed = r.absorbed := by
  unfold State.repriced
  split
  · split
    · exact ⟨s.refreshed_link r, s.refreshed_absorbed r⟩
    · exact ⟨rfl, rfl⟩
  · exact ⟨rfl, rfl⟩

theorem State.storeFaultProfile_records (s : State) (p : Fin 16) (new : FaultProfile) :
    (s.storeFaultProfile p new).records = s.records.mapAll fun _ r =>
      ((s.setFaultProfiles (s.faultProfiles.set p.val new p.isLt)).setAssets (s.assets.mapAll fun _ x =>
        if x.config.faultProfile = p then { x with integrator := min x.integrator new.ceiling } else x)).repriced p r := rfl

/-- Every move is an event. -/
theorem Move.event {s t : State} (ht : Move s t) (hc : s.Canonical) : Event s t := by
  cases ht with
  | lineSecond k => unfold State.lineSecond; split <;> exact .of_books rfl rfl
  | hear k hx ho => exact .of_books (s.lineTakes_books _ _ _ _).1 (s.lineTakes_books _ _ _ _).2
  | @windows g hg =>
    exact .mapAssets (fun a x => { x with window := x.window.map (g a x) }) (fun _ _ => ⟨rfl, rfl⟩) rfl rfl rfl rfl rfl
  | window hx hg =>
    exact .quiet (.putAsset hx rfl) (fun _ => rfl) (State.tree_putAsset_of_asset? hc.1 hx rfl) rfl
  | @faultProfile p new hm hn =>
    refine .maintained ?_ ?_ hm
    · refine .trans (t := (s.setFaultProfiles (s.faultProfiles.set p.val new p.isLt)).setAssets (s.assets.mapAll fun _ x =>
        if x.config.faultProfile = p then { x with integrator := min x.integrator new.ceiling } else x)) ?_ ?_
      · refine .mapAssets (fun _ x => if x.config.faultProfile = p then { x with integrator := min x.integrator new.ceiling }
          else x) (fun _ x => ?_) rfl rfl rfl rfl
        split <;> rfl
      · exact .mapRecords _ (fun _ r => (State.repriced_same _ p r).1) (State.storeFaultProfile_records s p new) rfl rfl rfl
    · exact .mapRecords _ (fun _ r => (State.repriced_same _ p r).2) (State.storeFaultProfile_records s p new)
  | @storeAsset a config ha hc' hm hp he hx =>
    cases hx' : s.asset? a with
    | none =>
      rw [hx'] at hx
      have stored : s.storeAsset a config = s.putAsset a (s.newAsset config) := by rw [State.storeAsset, hx']
      rw [stored]
      exact .created s ha hx' hm hp hx
    | some x =>
      obtain ⟨halike, hcounts, hcor⟩ := State.storeAsset_alike hx' config
      cases hmode : s.mode with
      | maintain =>
        refine .maintained halike hcounts ?_
        have := (Prod.mk.inj (Prod.mk.inj (Prod.mk.inj hcor).2).2).1
        exact this.trans hmode
      | entering => exact absurd hmode hm
      | run =>
        refine .quiet halike hcounts ?_ hcor
        have same : x.config.parent = config.parent := by
          by_contra hne
          exact he ⟨hmode, by rw [hx', editNeedsMaintain]; simp [hne]⟩
        rw [State.tree_storeAsset hc]
        refine Table.put_of_get? (by rw [Table.wf_iff, s.tree_keys]; exact (Table.wf_iff _).1 hc.1) ?_
        rw [State.tree, Table.get?_map s.assets fun x => x.config.parent, show s.assets.get? a = some x from hx', ← same]
        rfl
  | eraseAsset hx hm he => exact .erased s hx hm he
  | sample hm => exact .sample s _ hm
  | escalate hm =>
    rw [State.escalateAll, if_pos hm]
    exact .mapRecords (fun _ r => s.escalated r) (fun _ r => s.escalated_same r) rfl rfl rfl rfl rfl
  | unflag id => exact .adjustRecord s id fun _ => ⟨rfl, rfl⟩
  | acknowledge id hc => exact .adjustRecord s id fun _ => ⟨rfl, rfl⟩
  | close hm hr => exact .close s hm hr
  | beginWalk => exact .beginWalk s
  | absorbVisit => exact .absorbVisit s
  | releaseVisit => exact .releaseVisit s
  | rebuildVisit hm hb hv => exact .rebuildVisit s hm hb hv
  | beginEntering owed hm =>
    refine .entering (.trans (t := s.gapEveryLoop) (.mapAssets (fun _ x => x.withGap) (fun _ _ => rfl) rfl rfl rfl rfl)
      (.mapRecords (fun _ r => State.refreshed _ { r with absorbed := 0 }) (fun _ r => State.refreshed_link _ _) rfl rfl rfl rfl))
      (fun id r hr => ?_) (State.tree_of_mapAll (fun _ x => x.withGap) rfl fun _ _ => rfl) rfl ⟨owed, rfl⟩
    have mapped : (s.beginEntering owed).records = s.records.mapAll fun _ r => State.refreshed _ { r with absorbed := 0 } := rfl
    rw [mapped, Table.get?_mapAll, Option.map_eq_some_iff] at hr
    obtain ⟨r', -, rfl⟩ := hr
    exact State.refreshed_absorbed _ _
  | enterRun hm hb hv => exact .entered (.of_books rfl) (.of_books rfl) rfl hm hb hv rfl
  | leaveRun hm =>
    have books : ((((((s.setMode .maintain).haltLine 0).haltLine 1).haltLine 2).haltLine 3).endStorm).books = s.books := by
      rw [(State.endStorm_books _).1]
      simp only [(State.haltLine_books _ _).1]
      rfl
    have cor : ((((((s.setMode .maintain).haltLine 0).haltLine 1).haltLine 2).haltLine 3).endStorm).correlation
        = (s.setMode .maintain).correlation := by
      rw [(State.endStorm_books _).2]
      simp only [(State.haltLine_books _ _).2]
    exact .maintained (.of_books books) (.of_books books) (Prod.mk.inj (Prod.mk.inj (Prod.mk.inj cor).2).2).1
  | restartRuntime =>
    refine .cleared (fun a y hy => ?_) rfl rfl rfl ?_
    · have mapped : (s.restartRuntime).assets = s.assets.mapAll fun _ x => x.restarted := rfl
      rw [State.asset?, mapped, Table.get?_mapAll, Option.map_eq_some_iff] at hy
      obtain ⟨x, -, rfl⟩ := hy
      rfl
    · have hmode : s.restartRuntime.mode = if s.mode = .run then .run else .maintain := rfl
      rw [hmode]
      split <;> exact nofun
  | restartFull => exact .cleared (fun a y hy => by cases hy) rfl rfl rfl nofun
  | powerOn => exact .cleared (fun a y hy => by cases hy) rfl rfl rfl nofun
  | _ => exact .of_books rfl rfl

end Sys2Proof.Machine
end

section
/-! PROOFS. The law of the fault table, event by event (O58). -/

namespace Sys2Proof.Machine

theorem SameLinks.of_links {s t : State} {free : Nat → Prop}
    (h : ∀ id, (t.records.get? id).map FaultRecord.link = (s.records.get? id).map FaultRecord.link) :
    SameLinks s t free := by
  intro id
  have he := h id
  cases hs : s.records.get? id with
  | none =>
    rw [hs, Option.map_none, Option.map_eq_none_iff] at he
    exact .inl ⟨rfl, he⟩
  | some r =>
    rw [hs, Option.map_some, Option.map_eq_some_iff] at he
    obtain ⟨r', ht, hl⟩ := he
    simp only [FaultRecord.link, Prod.mk.injEq] at hl
    exact .inr ⟨r, r', rfl, ht, hl.1, fun _ => hl.2⟩

theorem place_of_standing {x y : Option Asset} (h : y.map Asset.standing = x.map Asset.standing) :
    y.map Asset.place = x.map Asset.place := by
  cases x <;> cases y <;> simp_all [Asset.standing, Asset.place]

theorem State.Alike.faultLaw {s t : State} (ht : s.Alike t) (hc : s.Canonical) (hct : t.Canonical) (h : s.FaultLaw) :
    t.FaultLaw :=
  State.Balanced.faultLaw ((h.balanced hc).of_same hct (fun a => place_of_standing (ht.standing a))
    (fun a _ => ht.standing a) (.of_links ht.links) ht.length ht.waiting ht.nextId) (h.crowded.of_same ht.waiting ht.length)

section
variable {s : State} (h : s.Balanced)
include h

/-- A new asset enters the table HEALTHY and without a place in the fault table. -/
theorem State.Balanced.createAsset {a : Nat} {x : Asset} (hx : s.asset? a = none) (hf : x.health = .healthy)
    (hid : x.faultId = none) (hw : x.waiting = false) : (s.putAsset a x).Balanced := by
  have assets (b : Nat) : (s.putAsset a x).asset? b = if b = a then some x else s.asset? b := by
    rw [State.asset?, State.putAsset, State.setAssets_assets]
    split
    · next hb => rw [hb, Table.get?_put_self]
    · next hb => rw [Table.get?_put_of_ne _ _ hb, State.asset?]
  have holds (b : Nat) : (s.putAsset a x).faultIdOf b = s.faultIdOf b := by
    rw [State.faultIdOf, assets]
    split
    · next hb => rw [hb, State.faultIdOf, hx]; exact hid
    · rfl
  have apart : a ∉ s.waiting := fun ha => h.present ha hx
  refine
    { canonical := h.canonical.putAsset a x
      holder := fun hr => (holds _).trans (h.holder hr)
      record := fun hb => h.record ((holds _).symm.trans hb)
      ids := fun hr => h.ids hr
      capacity := h.capacity
      nextId := h.nextId
      lawful := fun {b y} hy _ => ?_
      flags := fun {b y} hy => ?_
      nodup := h.nodup
      present := fun {b} hb => ?_ }
  · rw [assets] at hy
    split at hy
    · next hb =>
      cases hy
      exact .of_outside hid hw (hb ▸ apart) fun hn => absurd hf hn
    · exact (h.assetLaw hy).of_untouched (fun _ _ => rfl) Iff.rfl
  · rw [assets] at hy
    split at hy
    · next hb =>
      cases hy
      rw [hw]
      exact ⟨nofun, fun hb' => absurd (hb ▸ hb') apart⟩
    · exact h.flags hy
  · rw [assets]
    split
    · exact Option.some_ne_none _
    · exact h.present hb

/-- An asset leaves the table without a place in the fault table. -/
theorem State.Balanced.eraseAsset {a : Nat} {x : Asset} (hx : s.asset? a = some x) (hid : x.faultId = none)
    (hw : x.waiting = false) : (s.setAssets (s.assets.del a)).Balanced := by
  have assets (b : Nat) : (s.setAssets (s.assets.del a)).asset? b = if b = a then none else s.asset? b := by
    rw [State.asset?, State.setAssets_assets]
    split
    · next hb => rw [hb, Table.get?_del_self]
    · next hb => rw [Table.get?_del_of_ne _ hb, State.asset?]
  have holds (b : Nat) : (s.setAssets (s.assets.del a)).faultIdOf b = s.faultIdOf b := by
    rw [State.faultIdOf, assets]
    split
    · next hb => rw [hb, State.faultIdOf, hx]; exact hid.symm
    · rfl
  have apart : a ∉ s.waiting := h.not_waiting hx hw
  refine
    { canonical := h.canonical.setAssets (Table.wf_del h.canonical.1 a)
      holder := fun hr => (holds _).trans (h.holder hr)
      record := fun hb => h.record ((holds _).symm.trans hb)
      ids := fun hr => h.ids hr
      capacity := h.capacity
      nextId := h.nextId
      lawful := fun {b y} hy _ => ?_
      flags := fun {b y} hy => ?_
      nodup := h.nodup
      present := fun {b} hb => ?_ }
  · rw [assets] at hy
    split at hy
    · cases hy
    · exact (h.assetLaw hy).of_untouched (fun _ _ => rfl) Iff.rfl
  · rw [assets] at hy
    split at hy
    · cases hy
    · exact h.flags hy
  · rw [assets, if_neg fun hba : b = a => apart (hba ▸ hb)]
    exact h.present hb

end

/-- A part without records and with every asset HEALTHY. -/
theorem State.faultLaw_of_cleared {s : State} (hc : s.Canonical)
    (hx : ∀ a y, s.asset? a = some y → y.standing = (.healthy, none, none, false)) (hr : s.records = [])
    (hw : s.waiting = []) (hn : s.nextId = 1) : s.FaultLaw := by
  refine ⟨by simp [hr], fun e he => by simp [hr] at he, fun e he => ?_, by simp [hw], fun a ha => by simp [hw] at ha,
    fun hne => absurd hw hne, by omega, by omega⟩
  have hs := hx e.1 e.2 (Table.get?_of_mem hc.1 he)
  simp only [Asset.standing, Prod.mk.injEq] at hs
  obtain ⟨hf, -, hid, hwt⟩ := hs
  exact .of_outside hid hwt (by simp [hw]) fun hne => absurd hf hne

theorem State.eraseConflict_eq_false {s : State} {a : Nat} {x : Asset} (h : s.eraseConflict a x = false) :
    s.hasChild a = false ∧ x.faultId = none ∧ x.waiting = false ∧ (s.mode = .run → x.health = .healthy ∧ s.isWalkRoot a = false) := by
  simp only [State.eraseConflict, Bool.or_eq_false_iff] at h
  obtain ⟨⟨⟨⟨⟨⟨hchild, -⟩, -⟩, hid⟩, hw⟩, hf⟩, hroot⟩ := h
  refine ⟨hchild, Option.isSome_eq_false_iff.1 hid |> Option.isNone_iff_eq_none.1, hw, fun hm => ?_⟩
  simp only [hm, decide_true, Bool.true_and, decide_eq_false_iff_not, not_not] at hf hroot
  exact ⟨hf, hroot⟩

theorem Event.faultLaw {s t : State} (he : Event s t) (hc : s.Canonical) (hct : t.Canonical) (h : s.FaultLaw) :
    t.FaultLaw := by
  have balanced := h.balanced hc
  have crowded := h.crowded
  cases he with
  | quiet ha | maintained ha | entering ha | entered ha => exact ha.faultLaw hc hct h
  | created ha hx hm hp hcf =>
    exact (balanced.createAsset hx (x := s.newAsset _) rfl rfl rfl).faultLaw (crowded.of_same rfl rfl)
  | erased hx hm he =>
    obtain ⟨-, hid, hw, -⟩ := State.eraseConflict_eq_false he
    exact (balanced.eraseAsset hx hid hw).faultLaw (crowded.of_same rfl rfl)
  | sample a hm => exact (balanced.sample crowded a).1.faultLaw (balanced.sample crowded a).2
  | close hm hr => exact (balanced.close crowded hr).1.faultLaw (balanced.close crowded hr).2
  | beginWalk =>
    refine State.Alike.faultLaw (s := s) (.of_books ?_) hc hct h
    unfold State.beginWalk
    split <;> rfl
  | absorbVisit =>
    obtain he | ⟨he, -⟩ | ⟨w, id, cursor, -, -, -, -, -, -, he⟩ := s.absorbVisit_cases
    · rw [he]
      exact h
    · exact State.Alike.faultLaw (s := s) (.of_books (by rw [he]; rfl)) hc hct h
    · obtain ⟨hb, hcr⟩ := balanced.absorbAt crowded w.root id (cursor.getLastD w.root)
      exact (hb.faultLaw hcr |> State.Alike.faultLaw (.of_books (by rw [he]; rfl)) hb.canonical hct :)
  | releaseVisit =>
    obtain he | ⟨he, -⟩ | ⟨w, cursor, -, -, -, -, -, he⟩ := s.releaseVisit_cases
    · rw [he]
      exact h
    · exact State.Alike.faultLaw (s := s) (.of_books (by rw [he]; rfl)) hc hct h
    · obtain ⟨hb, hcr⟩ := balanced.releaseAt crowded w.root (cursor.getLastD w.root)
      exact (hb.faultLaw hcr |> State.Alike.faultLaw (.of_books (by rw [he]; rfl)) hb.canonical hct :)
  | rebuildVisit hm hb hv =>
    obtain ⟨hbal, hcr⟩ := balanced.rebuildAt crowded _
    exact State.Alike.faultLaw (.of_books rfl) hbal.canonical hct (hbal.faultLaw hcr)
  | cleared hx hr hw hn hm => exact State.faultLaw_of_cleared hct hx hr hw hn

theorem law_faultLaw : Law fun s => s.Canonical ∧ s.FaultLaw :=
  ⟨fun ht ⟨hc, h⟩ => ⟨ht.canonical hc, (ht.event hc).faultLaw hc (ht.canonical hc) h⟩, fun _ h => h⟩

/-- Settles O58: every event leaves the ledger balanced. -/
theorem faultLawKept : Obligations.FaultLawKept := by
  intro s t hc h ht
  exact (law_faultLaw.step ⟨hc, h⟩ ht).2

end Sys2Proof.Machine
end

section
/-! PROOFS. The order of the tree (R6, R16, R130, R138): preorder lists and their recursion, what a cursor leaves of them,
and the highest holder above an asset. -/

namespace Sys2Proof.Machine

/-! ## Children and descendants -/

theorem Table.keysWhere_pairwise {α : Type} {t : Table α} (h : t.wf = true) (p : Nat → α → Bool) :
    (t.keysWhere p).Pairwise (· < ·) := by
  rw [Table.wf_iff] at h
  exact h.sublist (List.filter_sublist.map _)

theorem descendantsUpTo_succ {s : State} (h : s.assets.wf = true) {f a : Nat} (ha : ∀ d, s.up (f + 1) d ≠ some a) :
    descendantsUpTo s (f + 1) a = descendantsUpTo s f a := by
  induction f generalizing a with
  | zero =>
    have none : s.childrenOf a = [] := List.eq_nil_iff_forall_not_mem.2 fun c hc =>
      ha c (by simpa [State.up] using (State.mem_childrenOf h).1 hc)
    simp [descendantsUpTo, none]
  | succ f ih =>
    rw [descendantsUpTo, descendantsUpTo]
    refine List.flatMap_congr fun c hc => congrArg (c :: ·) (ih fun d hd => ha d ?_)
    rw [State.up_succ, hd]
    exact (State.mem_childrenOf h).1 hc

section
variable {s : State} (h : s.Forest)
include h

theorem State.Forest.childrenOf_pairwise (a : Nat) : (s.childrenOf a).Pairwise (· < ·) := Table.keysWhere_pairwise h.wf _

theorem State.Forest.roots_pairwise : s.roots.Pairwise (· < ·) := Table.keysWhere_pairwise h.wf _

/-- The preorder, one level at a time. -/
theorem State.Forest.descendantsOf_eq (a : Nat) :
    s.descendantsOf a = (s.childrenOf a).flatMap fun c => c :: s.descendantsOf c := by
  have whole (c : Nat) : s.descendantsOf c = descendantsUpTo s 5 c :=
    descendantsUpTo_succ h.wf fun d => by rw [h.shallow]; exact nofun
  have first : s.descendantsOf a = (s.childrenOf a).flatMap fun c => c :: descendantsUpTo s 5 c := rfl
  simp only [first, whole]

/-- Two assets of which neither is above the other have no descendant in common, each counted among its own. -/
theorem State.Forest.apart {c c' d : Nat} (hne : c ≠ c') (hc : c ∉ s.ancestorsOf c') (hc' : c' ∉ s.ancestorsOf c)
    (hd : d ∈ c :: s.descendantsOf c) (hd' : d ∈ c' :: s.descendantsOf c') : False := by
  rw [List.mem_cons, h.mem_descendantsOf] at hd hd'
  rcases hd with rfl | hd <;> rcases hd' with rfl | hd'
  · exact hne rfl
  · exact hc' hd'
  · exact hc hd
  · rcases h.chain hd hd' with he | he | he
    · exact hne he
    · exact hc he
    · exact hc' he

theorem State.Forest.sibling_not_above {a c c' : Nat} (hc : s.parentOf c = some a) (hc' : s.parentOf c' = some a) :
    c ∉ s.ancestorsOf c' := by
  rw [h.mem_ancestorsOf_parent hc']
  rintro (rfl | hca)
  · exact h.irrefl c (h.parent_mem hc)
  · exact h.irrefl a (h.trans (h.parent_mem hc) hca)

omit h in
theorem nodup_flatMap_cons {l : List Nat} {g : Nat → List Nat} (hl : l.Nodup) (hg : ∀ c ∈ l, (c :: g c).Nodup)
    (ha : ∀ c ∈ l, ∀ c' ∈ l, c ≠ c' → ∀ d, d ∈ c :: g c → d ∈ c' :: g c' → False) :
    (l.flatMap fun c => c :: g c).Nodup := by
  rw [List.nodup_flatMap]
  refine ⟨hg, hl.imp_of_mem fun {c c'} hc hc' hne => ?_⟩
  intro d hd hd'
  exact ha c hc c' hc' hne d hd hd'

omit h in
theorem State.nodup_of_pairwise_lt {l : List Nat} (hl : l.Pairwise (· < ·)) : l.Nodup := hl.imp fun hlt => Nat.ne_of_lt hlt

theorem State.Forest.nodup_descendantsOf (a : Nat) : (s.descendantsOf a).Nodup := by
  have nodup (f a : Nat) : (descendantsUpTo s f a).Nodup := by
    induction f generalizing a with
    | zero => exact List.nodup_nil
    | succ f ih =>
      have below {c d : Nat} (hd : d ∈ descendantsUpTo s f c) : d ∈ s.descendantsOf c := by
        obtain ⟨n, h1, -, hn⟩ := (mem_descendantsUpTo h.wf).1 hd
        exact h.mem_descendantsOf.2 (h.mem_ancestorsOf.2 ⟨n, h1, hn⟩)
      refine nodup_flatMap_cons (State.nodup_of_pairwise_lt (h.childrenOf_pairwise a)) (fun c _ => ?_)
        fun c hc c' hc' hne d hd hd' => ?_
      · refine List.nodup_cons.2 ⟨fun hc => h.irrefl c (h.mem_descendantsOf.1 (below hc)), ih c⟩
      · rw [State.mem_childrenOf h.wf] at hc hc'
        refine h.apart hne (h.sibling_not_above hc hc') (h.sibling_not_above hc' hc) (d := d) ?_ ?_
        · exact List.mem_cons.2 ((List.mem_cons.1 hd).imp_right below)
        · exact List.mem_cons.2 ((List.mem_cons.1 hd').imp_right below)
  exact nodup _ a

/-! ## The whole forest -/

theorem State.Forest.nodup_forest : s.forest.Nodup := by
  have top {r r' : Nat} (hr : r' ∈ s.roots) : r ∉ s.ancestorsOf r' := by
    rw [h.ancestorsOf_eq, ((State.mem_roots h.wf).1 hr).2]
    exact List.not_mem_nil
  refine nodup_flatMap_cons (State.nodup_of_pairwise_lt h.roots_pairwise) (fun r _ => ?_) fun r hr r' hr' hne d hd hd' => ?_
  · exact List.nodup_cons.2 ⟨fun hr => h.irrefl r (h.mem_descendantsOf.1 hr), h.nodup_descendantsOf r⟩
  · exact h.apart hne (top hr') (top hr) hd hd'

theorem State.Forest.mem_forest {d : Nat} : d ∈ s.forest ↔ s.asset? d ≠ none := by
  have reaches (n d : Nat) (hn : s.up n d = none) (hd : s.asset? d ≠ none) :
      ∃ r ∈ s.roots, d = r ∨ r ∈ s.ancestorsOf d := by
    induction n generalizing d with
    | zero => cases hn
    | succ n ih =>
      cases hp : s.parentOf d with
      | none => exact ⟨d, (State.mem_roots h.wf).2 ⟨hd, hp⟩, .inl rfl⟩
      | some p =>
        rw [State.up, hp] at hn
        obtain ⟨r, hr, hrp⟩ := ih p hn (h.present hp)
        exact ⟨r, hr, .inr ((h.mem_ancestorsOf_parent hp).2 (hrp.imp_left Eq.symm))⟩
  simp only [State.forest, List.mem_flatMap, List.mem_cons, h.mem_descendantsOf]
  constructor
  · rintro ⟨r, hr, rfl | hd⟩
    · exact ((State.mem_roots h.wf).1 hr).1
    · exact State.asset?_ne_none_of_ancestor hd
  · exact reaches 6 d (h.shallow d)

/-- The rebuild's order is an order of all present assets (R138). -/
theorem State.Forest.forest_perm : s.forest.Perm (s.assets.map Prod.fst) := by
  rw [List.perm_ext_iff_of_nodup h.nodup_forest (State.nodup_of_pairwise_lt ((Table.wf_iff _).1 h.wf))]
  intro d
  rw [h.mem_forest]
  exact Table.has_iff_mem_keys h.wf

end

/-! ## Cursors (R130) -/

/-- Above a number in an ascending list stand first the next and then those above it. -/
theorem filter_lt_of_find? {l : List Nat} (hl : l.Pairwise (· < ·)) {c x : Nat} (hx : l.find? (fun y => c < y) = some x) :
    x ∈ l ∧ l.filter (fun y => c < y) = x :: l.filter fun y => x < y := by
  induction l with
  | nil => cases hx
  | cons y l ih =>
    rw [List.pairwise_cons] at hl
    by_cases hy : c < y
    · rw [List.find?_cons_of_pos (by simpa using hy)] at hx
      cases hx
      refine ⟨List.mem_cons_self, ?_⟩
      rw [List.filter_cons_of_pos (by simpa using hy), List.filter_cons_of_neg (by simp)]
      have above (b : Nat) (hb : ∀ z ∈ l, b < z) : l.filter (fun z => b < z) = l :=
        List.filter_eq_self.2 fun z hz => by simpa using hb z hz
      rw [above c fun z hz => hy.trans (hl.1 z hz), above x hl.1]
    · rw [List.find?_cons_of_neg (by simpa using hy)] at hx
      obtain ⟨hm, he⟩ := ih hl.2 hx
      refine ⟨List.mem_cons_of_mem _ hm, ?_⟩
      have hxy : ¬x < y := fun hxy => by have := hl.1 x hm; omega
      rw [List.filter_cons_of_neg (by simpa using hy), he, List.filter_cons_of_neg (by simpa using hxy)]

theorem nextCursor_ne_nil {s : State} {a : Nat} {cursor next : List Nat} (h : nextCursor s a cursor = some next) : next ≠ [] := by
  rintro rfl
  cases cursor with
  | nil => simp [nextCursor] at h
  | cons c rest =>
    rw [nextCursor] at h
    split at h
    · cases h
    · simp at h

section
variable {s : State} (h : s.Forest)
include h

/-- The siblings after a child, with what is below them. -/
theorem State.Forest.remaining_sibling {a c x : Nat} (hx : s.nextSibling a c = some x) :
    ((s.childrenOf a).filter fun y => c < y).flatMap (fun y => y :: s.descendantsOf y) = x :: s.remaining a [x] := by
  obtain ⟨hm, he⟩ := filter_lt_of_find? (h.childrenOf_pairwise a) hx
  rw [he, List.flatMap_cons]
  simp [State.remaining, hm]

/-- A cursor without a next one leaves nothing. -/
theorem State.Forest.remaining_none {a : Nat} {cursor : List Nat} (hn : nextCursor s a cursor = none) :
    s.remaining a cursor = [] := by
  induction cursor generalizing a with
  | nil =>
    rw [nextCursor, Option.map_eq_none_iff, List.head?_eq_none_iff] at hn
    rw [State.remaining, h.descendantsOf_eq, hn]
    rfl
  | cons c rest ih =>
    rw [nextCursor] at hn
    split at hn
    · cases hn
    · next hd =>
      rw [Option.map_eq_none_iff, State.nextSibling, List.find?_eq_none] at hn
      have above : (s.childrenOf a).filter (fun y => c < y) = [] := List.filter_eq_nil_iff.2 hn
      rw [State.remaining, above]
      split
      · next hc =>
        rw [if_pos hc] at hd
        rw [ih hd]
        rfl
      · rfl

/-- What a cursor leaves is the asset of the next cursor and what that leaves. -/
theorem State.Forest.remaining_next {a : Nat} {cursor next : List Nat} (hn : nextCursor s a cursor = some next) :
    s.remaining a cursor = next.getLastD a :: s.remaining a next := by
  induction cursor generalizing a next with
  | nil =>
    rw [nextCursor, Option.map_eq_some_iff] at hn
    obtain ⟨x, hx, rfl⟩ := hn
    obtain ⟨l, hl⟩ := List.head?_eq_some_iff.1 hx
    have sorted := h.childrenOf_pairwise a
    rw [hl, List.pairwise_cons] at sorted
    have above : (s.childrenOf a).filter (fun y => x < y) = l := by
      rw [hl, List.filter_cons_of_neg (by simp)]
      exact List.filter_eq_self.2 fun z hz => by simpa using sorted.1 z hz
    have hm : x ∈ s.childrenOf a := by rw [hl]; exact List.mem_cons_self
    rw [State.remaining, h.descendantsOf_eq, hl, List.flatMap_cons, ← above]
    simp [State.remaining, hm]
  | cons c rest ih =>
    rw [nextCursor] at hn
    split at hn
    · next cur hd =>
      cases hn
      split at hd
      · next hc =>
        have hne := nextCursor_ne_nil hd
        have last : (c :: cur).getLastD a = cur.getLastD c := by
          cases cur with
          | nil => exact absurd rfl hne
          | cons y ys => rfl
        rw [State.remaining, State.remaining, if_pos hc, ih hd, last, if_pos hc]
        rfl
      · cases hd
    · next hd =>
      rw [Option.map_eq_some_iff] at hn
      obtain ⟨x, hx, rfl⟩ := hn
      have deeper : (if (s.childrenOf a).contains c then s.remaining c rest else []) = [] := by
        split at hd
        · next hc =>
          exact (if_pos hc).trans (h.remaining_none hd)
        · next hc => exact if_neg hc
      rw [State.remaining, deeper, List.nil_append, h.remaining_sibling hx]
      rfl

/-- What a cursor leaves are descendants, each once. -/
theorem State.Forest.remaining_subset {a : Nat} {cursor : List Nat} {d : Nat} (hd : d ∈ s.remaining a cursor) :
    d ∈ s.descendantsOf a := by
  induction cursor generalizing a with
  | nil => exact hd
  | cons c rest ih =>
    rw [State.remaining, List.mem_append] at hd
    rw [h.descendantsOf_eq, List.mem_flatMap]
    rcases hd with hd | hd
    · split at hd
      · next hc => exact ⟨c, by simpa using hc, List.mem_cons_of_mem _ (ih hd)⟩
      · cases hd
    · obtain ⟨x, hx, hd⟩ := List.mem_flatMap.1 hd
      exact ⟨x, (List.mem_filter.1 hx).1, hd⟩

/-- What a cursor leaves holds with an asset all that is below it. -/
theorem State.Forest.remaining_closed {a : Nat} {cursor : List Nat} {d e : Nat} (hd : d ∈ s.remaining a cursor)
    (he : d ∈ s.ancestorsOf e) : e ∈ s.remaining a cursor := by
  induction cursor generalizing a with
  | nil => exact h.mem_descendantsOf.2 (h.trans (h.mem_descendantsOf.1 hd) he)
  | cons c rest ih =>
    rw [State.remaining, List.mem_append] at hd ⊢
    rcases hd with hd | hd
    · split at hd
      · next hc => exact .inl ((if_pos hc).symm ▸ ih hd)
      · cases hd
    · obtain ⟨x, hx, hd⟩ := List.mem_flatMap.1 hd
      refine .inr (List.mem_flatMap.2 ⟨x, hx, List.mem_cons_of_mem _ (h.mem_descendantsOf.2 ?_)⟩)
      rcases List.mem_cons.1 hd with rfl | hd
      · exact he
      · exact h.trans (h.mem_descendantsOf.1 hd) he

end

/-! ## Chains of ancestors -/

section
variable {s : State} (h : s.Forest)
include h

/-- Later ancestors are above earlier ones. -/
theorem State.Forest.ancestorsOf_pairwise (d : Nat) : (s.ancestorsOf d).Pairwise fun x y => y ∈ s.ancestorsOf x := by
  have chain (n d : Nat) (hn : s.up n d = none) : (s.ancestorsOf d).Pairwise fun x y => y ∈ s.ancestorsOf x := by
    induction n generalizing d with
    | zero => cases hn
    | succ n ih =>
      rw [h.ancestorsOf_eq]
      cases hp : s.parentOf d with
      | none => exact List.Pairwise.nil
      | some p =>
        rw [State.up, hp] at hn
        exact List.pairwise_cons.2 ⟨fun y hy => hy, ih p hn⟩
  exact chain 6 d (h.shallow d)

/-- The assets above an ancestor follow it. -/
theorem State.Forest.ancestorsOf_split {d z : Nat} (hz : z ∈ s.ancestorsOf d) :
    ∃ lower, s.ancestorsOf d = lower ++ z :: s.ancestorsOf z := by
  have split (n d : Nat) (hn : s.up n d = none) (hz : z ∈ s.ancestorsOf d) :
      ∃ lower, s.ancestorsOf d = lower ++ z :: s.ancestorsOf z := by
    induction n generalizing d with
    | zero => cases hn
    | succ n ih =>
      cases hp : s.parentOf d with
      | none =>
        rw [h.ancestorsOf_eq, hp] at hz
        cases hz
      | some p =>
        have hd := h.ancestorsOf_eq d
        rw [hp] at hd
        rw [State.up, hp] at hn
        rw [hd] at hz ⊢
        rcases List.mem_cons.1 hz with rfl | hz
        · exact ⟨[], rfl⟩
        · obtain ⟨lower, he⟩ := ih p hn hz
          exact ⟨p :: lower, by dsimp only; rw [he]; rfl⟩
  exact split 6 d (h.shallow d) hz

end

/-- The highest ancestor with a record, and that there is none (R16). -/
theorem State.highestHolder_eq_some {s : State} {d z : Nat} : s.highestHolder d = some z ↔
    ∃ lower higher, s.ancestorsOf d = lower ++ z :: higher ∧ s.faultIdOf z ≠ none ∧ ∀ b ∈ higher, s.faultIdOf b = none := by
  rw [State.highestHolder, List.find?_eq_some_iff_append]
  simp only [Option.isSome_iff_ne_none, Bool.not_eq_true', Option.isSome_eq_false_iff, Option.isNone_iff_eq_none]
  constructor
  · rintro ⟨hz, above, below, he, hnone⟩
    refine ⟨below.reverse, above.reverse, ?_, hz, fun b hb => hnone b (List.mem_reverse.1 hb)⟩
    rw [← List.reverse_reverse (s.ancestorsOf d), he]
    simp
  · rintro ⟨lower, higher, he, hz, hnone⟩
    refine ⟨hz, higher.reverse, lower.reverse, ?_, fun b hb => hnone b (List.mem_reverse.1 hb)⟩
    rw [he]
    simp

theorem State.highestHolder_eq_none {s : State} {d : Nat} :
    s.highestHolder d = none ↔ ∀ b ∈ s.ancestorsOf d, s.faultIdOf b = none := by
  simp [State.highestHolder]

theorem State.highestHolder_mem {s : State} {d z : Nat} (hz : s.highestHolder d = some z) : z ∈ s.ancestorsOf d := by
  obtain ⟨lower, higher, he, -⟩ := State.highestHolder_eq_some.1 hz
  rw [he]
  exact List.mem_append_right _ List.mem_cons_self

/-- Every holder above an asset is its highest holder or below that one. -/
theorem State.Forest.highestHolder_above {s : State} (h : s.Forest) {d z b : Nat} (hz : s.highestHolder d = some z)
    (hb : b ∈ s.ancestorsOf d) (hh : s.faultIdOf b ≠ none) : z = b ∨ z ∈ s.ancestorsOf b := by
  obtain ⟨lower, higher, he, -, hnone⟩ := State.highestHolder_eq_some.1 hz
  have chain := h.ancestorsOf_pairwise d
  rw [he] at hb chain
  rcases List.mem_append.1 hb with hb | hb
  · exact .inr ((List.pairwise_append.1 chain).2.2 b hb z List.mem_cons_self)
  · rcases List.mem_cons.1 hb with rfl | hb
    · exact .inl rfl
    · exact absurd (hnone b hb) hh

/-! ## The order of the rebuild (R138) -/

section
variable {l pre post : List Nat} {v : Nat} (h : v ∉ pre)
include h

theorem dropWhile_ne_append : (pre ++ v :: post).dropWhile (fun x => x ≠ v) = v :: post := by
  rw [List.dropWhile_append_of_pos fun x hx => by rw [decide_eq_true_eq]; exact fun he => h (he ▸ hx)]
  simp

theorem takeWhile_ne_append : (pre ++ v :: post).takeWhile (fun x => x ≠ v) = pre := by
  rw [List.takeWhile_append_of_pos fun x hx => by rw [decide_eq_true_eq]; exact fun he => h (he ▸ hx)]
  simp

end

section
variable {s : State} (h : s.Forest)
include h

theorem State.Forest.not_mem_before {pre post : List Nat} {v : Nat} (he : s.forest = pre ++ v :: post) : v ∉ pre := by
  have nodup := h.nodup_forest
  rw [he, List.nodup_append] at nodup
  exact fun hv => nodup.2.2 v hv v List.mem_cons_self rfl

theorem State.Forest.rebuildNext_of_split {pre post : List Nat} {v : Nat} (he : s.forest = pre ++ v :: post) :
    s.rebuildNext (some v) = post.head? := by
  rw [State.rebuildNext, he]
  rw [dropWhile_ne_append (h.not_mem_before he)]
  rfl

/-- The rebuild's next asset stands behind the last in the order of the forest. -/
theorem State.Forest.split_of_rebuildNext {v w : Nat} (hw : s.rebuildNext (some v) = some w) :
    ∃ pre post, s.forest = pre ++ v :: w :: post := by
  have hv : v ∈ s.forest := by
    by_contra hv
    have gone : s.forest.dropWhile (fun x => x ≠ v) = [] :=
      List.dropWhile_eq_nil_iff.2 fun x hx => by rw [decide_eq_true_eq]; exact fun he => hv (he ▸ hx)
    rw [State.rebuildNext] at hw
    rw [gone] at hw
    cases hw
  obtain ⟨pre, post, he⟩ := List.append_of_mem hv
  rw [h.rebuildNext_of_split he, List.head?_eq_some_iff] at hw
  obtain ⟨post, rfl⟩ := hw
  exact ⟨pre, post, he⟩

/-! ## Visits in their order -/

/-- The visits from a cursor on are those it leaves. -/
theorem State.Forest.iterate_nextCursor (a n : Nat) (cursor : List Nat) :
    ((fun c : Option (List Nat) => c.bind (nextCursor s a))^[n + 1] (some cursor)).bind List.getLast?
      = (s.remaining a cursor)[n]? := by
  have ended (n : Nat) : (fun c : Option (List Nat) => c.bind (nextCursor s a))^[n] none = none :=
    Function.iterate_fixed rfl n
  induction n generalizing cursor with
  | zero =>
    rw [Function.iterate_succ_apply, Function.iterate_zero_apply, Option.bind_some]
    cases hn : nextCursor s a cursor with
    | none =>
      rw [h.remaining_none hn]
      rfl
    | some next =>
      obtain ⟨y, ys, rfl⟩ := List.exists_cons_of_ne_nil (nextCursor_ne_nil hn)
      rw [h.remaining_next hn, Option.bind_some]
      rfl
  | succ n ih =>
    rw [Function.iterate_succ_apply, Option.bind_some]
    cases hn : nextCursor s a cursor with
    | none =>
      rw [h.remaining_none hn, ended]
      rfl
    | some next =>
      rw [ih next, h.remaining_next hn]
      rfl

theorem State.Forest.iterate_rebuildNext (n : Nat) :
    (fun v : Option (Option Nat) => v.bind fun last => (s.rebuildNext last).map some)^[n + 1] (some none)
      = (s.forest[n]?).map some := by
  induction n with
  | zero =>
    rw [Function.iterate_succ_apply, Function.iterate_zero_apply, Option.bind_some, State.rebuildNext,
      List.head?_eq_getElem?]
  | succ n ih =>
    rw [Function.iterate_succ_apply', ih]
    cases hv : s.forest[n]? with
    | none =>
      rw [List.getElem?_eq_none_iff] at hv
      rw [List.getElem?_eq_none (by omega)]
      rfl
    | some v =>
      obtain ⟨hlt, hv⟩ := List.getElem?_eq_some_iff.1 hv
      have split : s.forest = s.forest.take n ++ v :: s.forest.drop (n + 1) := by
        rw [← hv, List.getElem_cons_drop, List.take_append_drop]
      rw [Option.map_some, Option.bind_some, h.rebuildNext_of_split split, List.head?_drop]

end

theorem State.childrenOf_eq_filter (s : State) (a : Nat) :
    s.childrenOf a = (s.assets.filter fun e => e.2.config.parent = some a).map Prod.fst := rfl

/-- Settles O48: a cursor leaves the descendants behind it in preorder, and the rebuild follows the forest. -/
theorem walkVisitsInPreorder : Obligations.WalkVisitsInPreorder := by
  intro s hc ht
  have h := ht.forest hc.1
  exact ⟨fun a n => h.iterate_nextCursor a n [],
    fun a => ⟨s.childrenOf_eq_filter a, h.childrenOf_pairwise a, h.descendantsOf_eq a⟩, rfl, h.roots_pairwise, rfl,
    h.forest_perm, h.iterate_rebuildNext⟩

end Sys2Proof.Machine
end

section
/-! PROOFS. What the correlation laws read of an operation of the fault table: whether it leaves absorbers and holders,
opens a record, clears one, or moves an asset under an absorber. -/

namespace Sys2Proof.Machine

/-! ## The walk list (R127) -/

theorem mem_queueEntry_self (l : List WalkEntry) (a : Nat) (kind : WalkKind) : ⟨a, kind⟩ ∈ queueEntry l a kind := by
  unfold queueEntry
  split
  · next he =>
    obtain ⟨e, hm, hr⟩ := List.any_eq_true.1 he
    rw [decide_eq_true_eq] at hr
    exact List.mem_map.2 ⟨e, hm, by rw [if_pos hr, hr]⟩
  · exact List.mem_append_right _ List.mem_cons_self

theorem mem_queueEntry_of_ne {l : List WalkEntry} {e : WalkEntry} (he : e ∈ l) {a : Nat} (hne : e.root ≠ a)
    (kind : WalkKind) : e ∈ queueEntry l a kind := by
  unfold queueEntry
  split
  · exact List.mem_map.2 ⟨e, he, if_neg hne⟩
  · exact List.mem_append_left _ he

/-! ## Four relations -/

/-- Absorbers, holders, the tree and the correlation unit's fields stay. -/
structure State.Parallel (s t : State) : Prop where
  tree : t.tree = s.tree
  absorber : ∀ d, t.absorbedByOf d = s.absorbedByOf d
  holds : ∀ b, t.faultIdOf b = s.faultIdOf b
  correlation : t.correlation = s.correlation

/-- The correlation unit's fields but for the walk list. -/
def State.walking (s : State) : Option Walk × Mode × Option Rebuild := (s.walk, s.mode, s.rebuild)

/-- An asset comes to hold a record, and its ABSORB walk is queued (R103). -/
structure State.Opens (s t : State) (a : Nat) : Prop where
  tree : t.tree = s.tree
  absorber : ∀ d, t.absorbedByOf d = s.absorbedByOf d
  holds : ∀ b, b ≠ a → t.faultIdOf b = s.faultIdOf b
  fresh : s.faultIdOf a = none
  held : t.faultIdOf a ≠ none
  walkList : t.walkList = if s.childrenOf a = [] then s.walkList else queueEntry s.walkList a .absorb
  walking : t.walking = s.walking

/-- An asset no longer holds a record, and its RELEASE walk is queued (R107, R118). -/
structure State.Clears (s t : State) (a : Nat) : Prop where
  tree : t.tree = s.tree
  absorber : ∀ d, t.absorbedByOf d = s.absorbedByOf d
  holds : ∀ b, b ≠ a → t.faultIdOf b = s.faultIdOf b
  held : s.faultIdOf a ≠ none
  gone : t.faultIdOf a = none
  walkList : t.walkList = if s.childrenOf a = [] then s.walkList else queueEntry s.walkList a .release
  walking : t.walking = s.walking

/-- An asset is named anew, and loses the record it may hold to its absorber (R132, R134, R138). -/
structure State.Names (s t : State) (d : Nat) (z : Option Nat) : Prop where
  tree : t.tree = s.tree
  absorber : ∀ b, b ≠ d → t.absorbedByOf b = s.absorbedByOf b
  named : t.absorbedByOf d = z
  holds : ∀ b, b ≠ d → t.faultIdOf b = s.faultIdOf b
  lost : t.faultIdOf d = s.faultIdOf d ∨ t.faultIdOf d = none ∧ z ≠ none
  correlation : t.correlation = s.correlation

/-- Nothing, or the opening of one record. -/
def State.Served (s t : State) : Prop := s.Parallel t ∨ ∃ a, s.Opens t a

theorem State.Parallel.refl (s : State) : s.Parallel s := ⟨rfl, fun _ => rfl, fun _ => rfl, rfl⟩

theorem State.Parallel.trans {s t u : State} (h : s.Parallel t) (k : t.Parallel u) : s.Parallel u :=
  ⟨k.tree.trans h.tree, fun d => (k.absorber d).trans (h.absorber d), fun b => (k.holds b).trans (h.holds b),
    k.correlation.trans h.correlation⟩

theorem State.walking_of_correlation {s t : State} (h : t.correlation = s.correlation) : t.walking = s.walking :=
  (Prod.mk.inj h).2

theorem State.walkList_of_correlation {s t : State} (h : t.correlation = s.correlation) : t.walkList = s.walkList :=
  (Prod.mk.inj h).1

theorem State.Opens.then_parallel {s t u : State} {a : Nat} (h : s.Opens t a) (k : t.Parallel u) : s.Opens u a :=
  ⟨k.tree.trans h.tree, fun d => (k.absorber d).trans (h.absorber d), fun b hb => (k.holds b).trans (h.holds b hb), h.fresh,
    by rw [k.holds]; exact h.held,
    (State.walkList_of_correlation k.correlation).trans h.walkList, (State.walking_of_correlation k.correlation).trans h.walking⟩

theorem State.Parallel.then_opens {s t u : State} {a : Nat} (h : s.Parallel t) (k : t.Opens u a) : s.Opens u a :=
  ⟨k.tree.trans h.tree, fun d => (k.absorber d).trans (h.absorber d), fun b hb => (k.holds b hb).trans (h.holds b),
    (h.holds a).symm.trans k.fresh, k.held,
    by rw [k.walkList, State.childrenOf_of_tree h.tree, State.walkList_of_correlation h.correlation],
    k.walking.trans (State.walking_of_correlation h.correlation)⟩

theorem State.Served.then_parallel {s t u : State} (h : s.Served t) (k : t.Parallel u) : s.Served u :=
  h.imp (·.trans k) fun ⟨a, ha⟩ => ⟨a, ha.then_parallel k⟩

theorem State.Parallel.then_served {s t u : State} (h : s.Parallel t) (k : t.Served u) : s.Served u :=
  k.imp h.trans fun ⟨a, ha⟩ => ⟨a, h.then_opens ha⟩

theorem State.Names.then_parallel {s t u : State} {d : Nat} {z : Option Nat} (h : s.Names t d z) (k : t.Parallel u) :
    s.Names u d z :=
  ⟨k.tree.trans h.tree, fun b hb => (k.absorber b).trans (h.absorber b hb), (k.absorber d).trans h.named,
    fun b hb => (k.holds b).trans (h.holds b hb), by rw [k.holds]; exact h.lost, k.correlation.trans h.correlation⟩

/-! ## The operations -/

/-- What the two fields of an asset say. -/
theorem State.reads_of_asset? {s : State} {a : Nat} {x : Asset} (h : s.asset? a = some x) :
    s.absorbedByOf a = x.absorbedBy ∧ s.faultIdOf a = x.faultId := by
  rw [State.absorbedByOf, State.faultIdOf, h]
  exact ⟨rfl, rfl⟩

theorem State.absorbedByOf_congr {s t : State} {b : Nat} (h : t.asset? b = s.asset? b) : t.absorbedByOf b = s.absorbedByOf b := by
  rw [State.absorbedByOf, h, State.absorbedByOf]

theorem State.faultIdOf_congr {s t : State} {b : Nat} (h : t.asset? b = s.asset? b) : t.faultIdOf b = s.faultIdOf b := by
  rw [State.faultIdOf, h, State.faultIdOf]

/-- A change of an asset in other fields. -/
theorem State.Parallel.adjustAsset (s : State) (a : Nat) {f : Asset → Asset}
    (hf : ∀ x, (f x).config = x.config ∧ (f x).absorbedBy = x.absorbedBy ∧ (f x).faultId = x.faultId) :
    s.Parallel (s.adjustAsset a f) := by
  refine ⟨s.tree_adjustAsset a fun x => (hf x).1, fun d => ?_, fun b => ?_, rfl⟩
  · rw [State.absorbedByOf, State.asset?_adjustAsset, State.absorbedByOf]
    split
    · cases s.asset? d with
      | none => rfl
      | some x => exact (hf x).2.1
    · rfl
  · rw [State.faultIdOf, State.asset?_adjustAsset, State.faultIdOf]
    split
    · cases s.asset? b with
      | none => rfl
      | some x => exact (hf x).2.2
    · rfl

theorem State.Parallel.of_assets {s t : State} (ha : t.assets = s.assets) (hc : t.correlation = s.correlation) :
    s.Parallel t := by
  have same (b : Nat) : t.asset? b = s.asset? b := by rw [State.asset?, ha, State.asset?]
  exact ⟨State.tree_of_assets ha, fun d => State.absorbedByOf_congr (same d), fun b => State.faultIdOf_congr (same b), hc⟩

theorem State.onRecordOf_correlation (s : State) (a : Nat) (f : FaultRecord → FaultRecord) :
    (s.onRecordOf a f).correlation = s.correlation := by unfold State.onRecordOf; split <;> rfl

theorem State.Parallel.onRecordOf (s : State) (a : Nat) (f : FaultRecord → FaultRecord) : s.Parallel (s.onRecordOf a f) :=
  .of_assets (s.onRecordOf_assets a f) (s.onRecordOf_correlation a f)

theorem State.Parallel.joinWaiting (s : State) (a : Nat) : s.Parallel (s.joinWaiting a) :=
  .trans (t := s.setWaiting (s.waiting ++ [a])) (.of_assets rfl rfl) (.adjustAsset _ a fun _ => ⟨rfl, rfl, rfl⟩)

theorem State.Parallel.leaveWaiting (s : State) (a : Nat) : s.Parallel (s.leaveWaiting a) :=
  .trans (t := s.setWaiting (s.waiting.filter fun b => b ≠ a)) (.of_assets rfl rfl) (.adjustAsset _ a fun _ => ⟨rfl, rfl, rfl⟩)

/-- A change of an asset's fault ID. -/
theorem State.reads_faultId {s t : State} {a : Nat} {x : Asset} (hx : s.asset? a = some x) {id : Option Nat}
    (ht : t.assets = (s.adjustAsset a fun x => { x with faultId := id }).assets) :
    t.tree = s.tree ∧ (∀ d, t.absorbedByOf d = s.absorbedByOf d) ∧ (∀ b, b ≠ a → t.faultIdOf b = s.faultIdOf b)
      ∧ t.faultIdOf a = id := by
  have assets (b : Nat) : t.asset? b = (s.adjustAsset a fun x => { x with faultId := id }).asset? b := by
    rw [State.asset?, ht, State.asset?]
  have self := (assets a).trans (State.asset?_adjustAsset_self hx _)
  have others {b : Nat} (hb : b ≠ a) : t.asset? b = s.asset? b := (assets b).trans (State.asset?_adjustAsset_of_ne hb _)
  refine ⟨(State.tree_of_assets ht).trans (s.tree_adjustAsset a fun _ => rfl), fun d => ?_,
    fun b hb => State.faultIdOf_congr (others hb), (State.reads_of_asset? self).2⟩
  by_cases hd : d = a
  · rw [hd, (State.reads_of_asset? self).1, (State.reads_of_asset? hx).1]
  · exact State.absorbedByOf_congr (others hd)

theorem State.createRecord_opens {s : State} (hw : s.records.wf = true) {a : Nat} {x : Asset} {severity : Severity}
    (hx : s.asset? a = some x) (hf : x.health = .faulty severity) (hid : x.faultId = none) : s.Opens (s.createRecord a) a := by
  have he := State.createRecord_eq hw hx hf
  obtain ⟨htree, hab, hholds, hheld⟩ := State.reads_faultId (t := s.createRecord a) hx (by rw [he]; rfl)
  exact ⟨htree, hab, hholds, (State.reads_of_asset? hx).2.trans hid, by rw [hheld]; exact nofun, by rw [he], by rw [he]; rfl⟩

/-- The service of the waiting list opens one record or does nothing (R111). -/
theorem State.Balanced.serveWaiting_served {s : State} (h : s.Balanced) : s.Served s.serveWaiting := by
  cases hw : s.waiting with
  | nil =>
    have served : s.serveWaiting = s := by rw [State.serveWaiting, hw]
    exact .inl (served.symm ▸ .refl s)
  | cons a rest =>
    obtain ⟨x, severity, hx, hf, hab, hid⟩ := h.head hw id
    rw [h.serveWaiting_cons hw]
    exact (State.Parallel.leaveWaiting s a).then_served
      (.inr ⟨a, State.createRecord_opens (s := s.leaveWaiting a) h.canonical.2.2.2 (State.asset?_leaveWaiting hx) hf hid⟩)

/-- The request for a fault that is not absorbed opens one record or none (R102). -/
theorem State.openFault_served {s : State} (hw : s.records.wf = true) {a : Nat} {x : Asset} (hx : s.asset? a = some x)
    (hf : x.health ≠ .healthy) (hab : x.absorbedBy = none) (hid : x.faultId = none) : s.Served (s.openFault a) := by
  obtain ⟨severity, hs⟩ := Health.faulty_of_ne hf
  unfold State.openFault
  rw [hx]
  dsimp only
  rw [hab]
  dsimp only
  split
  · exact .inr ⟨a, State.createRecord_opens hw hx hs hid⟩
  · exact .inl (.joinWaiting s a)

/-- A change of an asset's absorber. -/
theorem State.Names.setAbsorber {s : State} {d : Nat} {x : Asset} (hx : s.asset? d = some x) (z : Option Nat) :
    s.Names (s.setAbsorber d z) d z := by
  have others {b : Nat} (hb : b ≠ d) : (s.setAbsorber d z).asset? b = s.asset? b :=
    State.asset?_adjustAsset_of_ne hb fun x => { x with absorbedBy := z }
  have self := State.reads_of_asset? (State.asset?_setAbsorber hx z)
  exact ⟨s.tree_adjustAsset d (f := fun x => { x with absorbedBy := z }) fun _ => rfl,
    fun b hb => State.absorbedByOf_congr (others hb), self.1, fun b hb => State.faultIdOf_congr (others hb),
    .inl (self.2.trans (State.reads_of_asset? hx).2.symm), rfl⟩

/-- The record of an asset that is named goes. -/
theorem State.Names.discard {s t : State} {d : Nat} {z : Option Nat} (h : s.Names t d z) (hz : z ≠ none) {y : Asset}
    (hy : t.asset? d = some y) (id : Nat) (n : Notice) : s.Names ((t.discardRecord id d).notify n) d z := by
  obtain ⟨htree, hab, hholds, hgone⟩ := State.reads_faultId (t := (t.discardRecord id d).notify n) hy (id := none) rfl
  exact ⟨htree.trans h.tree, fun b hb => (hab b).trans (h.absorber b hb), (hab d).trans h.named,
    fun b hb => (hholds b hb).trans (h.holds b hb), .inr ⟨hgone, hz⟩, h.correlation⟩

/-! ## Samples and visits -/

theorem State.Parallel.conditioned (s : State) (a i : Nat) (k : Health) :
    s.Parallel (s.adjustAsset a fun x => x.conditioned i k) := .adjustAsset s a fun _ => ⟨rfl, rfl, rfl⟩

/-- What a sample or a CLOSE does to holders: one may be cleared, and then one may be opened. -/
def State.Sampled (s t : State) : Prop := s.Served t ∨ ∃ u a, s.Clears u a ∧ u.Served t

theorem State.Sampled.after {s t u : State} (hp : s.Parallel t) (ht : t.Sampled u) : s.Sampled u := by
  rcases ht with ht | ⟨v, a, hv, hu⟩
  · exact .inl (hp.then_served ht)
  · refine .inr ⟨v, a, ⟨hv.tree.trans hp.tree, fun d => (hv.absorber d).trans (hp.absorber d),
      fun b hb => (hv.holds b hb).trans (hp.holds b), by rw [← hp.holds]; exact hv.held, hv.gone, ?_,
      hv.walking.trans (State.walking_of_correlation hp.correlation)⟩, hu⟩
    rw [hv.walkList, State.childrenOf_of_tree hp.tree, State.walkList_of_correlation hp.correlation]

/-- A record is cleared, and the waiting list served (R107, R118). -/
theorem State.Ledger.clearRecord_sampled {s : State} {a id : Nat} {x : Asset} (h : s.Ledger (· = a)) (hx : s.asset? a = some x)
    (hid : x.faultId = some id) (hw : x.waiting = false) (hf : x.health = .healthy) (manual : Bool) :
    ∃ u b, s.Clears u b ∧ u.Served (s.clearRecord id a manual) := by
  have he := s.clearRecord_eq id a manual
  generalize hu : ({ s with
      records := s.records.del id, assets := s.assets.adjust a fun x => { x with faultId := none },
      trunk := s.trunk.place ⟨s.trunk.node, .notice (.cleared id a manual)⟩,
      walkList := if s.childrenOf a = [] then s.walkList else queueEntry s.walkList a .release } : State) = u at he
  obtain ⟨htree, hab, hholds, hgone⟩ := State.reads_faultId (t := u) hx (id := none) (by rw [← hu]; rfl)
  have balanced := h.settle_discarded (t := u) hx hid (by rw [← hu]; rfl) (by rw [← hu]) hw (fun hn => absurd hf hn)
    (by rw [← hu])
  refine ⟨u, a, ⟨htree, hab, hholds, ?_, hgone, by rw [← hu], by rw [← hu]; rfl⟩,
    by rw [he]; exact balanced.serveWaiting_served⟩
  rw [(State.reads_of_asset? hx).2, hid]
  exact nofun

section
variable {s : State} (h : s.Balanced)
include h

theorem State.Balanced.becameHealthy_sampled {a : Nat} {x : Asset} (hx : s.asset? a = some x) (hf : x.health ≠ .healthy)
    (i : Nat) : (s.adjustAsset a fun x => x.conditioned i .healthy).Sampled
      ((s.adjustAsset a fun x => x.conditioned i .healthy).becameHealthy a) := by
  have hy := State.asset?_adjustAsset_self hx fun x => x.conditioned i .healthy
  have opened := h.opened a (f := fun x => x.conditioned i .healthy) fun _ => rfl
  unfold State.becameHealthy
  rw [hy]
  dsimp only
  cases (h.assetLaw hx).placed with
  | healthy hf' => exact absurd hf' hf
  | absorbed z _ hab hid hw =>
    rw [show (x.conditioned i .healthy).faultId = none from hid, show (x.conditioned i .healthy).absorbedBy = some z from hab]
    exact .inl (.inl (.onRecordOf _ _ _))
  | holding own _ hab hid hw =>
    rw [show (x.conditioned i .healthy).faultId = some own from hid]
    dsimp only
    exact .inr (opened.clearRecord_sampled hy hid hw rfl false)
  | waits _ hab hid hw =>
    rw [show (x.conditioned i .healthy).faultId = none from hid, show (x.conditioned i .healthy).absorbedBy = none from hab]
    dsimp only
    rw [if_pos (by exact hw)]
    exact .inl (.inl (.leaveWaiting _ a))

theorem State.Balanced.sample_sampled (a : Nat) : s.Sampled (s.sample a) := by
  cases hx : s.asset? a with
  | none =>
    rw [State.sample_absent hx]
    exact .inl (.inl (.refl s))
  | some x =>
    obtain ⟨i, k, ⟨-, he⟩ | ⟨hf, hk, he⟩ | ⟨hf, rfl, he⟩ | ⟨hf, rfl, he⟩⟩ := State.sample_cases h.canonical.1 hx <;> rw [he]
    · exact .inl (.inl (.conditioned s a i k))
    · refine .after (.conditioned s a i k) (.inl ?_)
      have hy := State.asset?_adjustAsset_self hx fun y => y.conditioned i k
      cases (h.assetLaw hx).placed with
      | healthy _ hid hw =>
        cases hab : x.absorbedBy with
        | none => exact State.openFault_served (s := s.adjustAsset a fun y => y.conditioned i k) h.canonical.2.2.2 hy hk hab hid
        | some z =>
          unfold State.openFault
          rw [hy]
          dsimp only
          rw [show (x.conditioned i k).absorbedBy = some z from hab]
          exact .inl (.onRecordOf _ _ _)
      | absorbed _ hf' | holding _ hf' | waits hf' => exact absurd hf hf'
    · exact .after (.conditioned s a i .healthy) (h.becameHealthy_sampled hx hf i)
    · exact .inl (.inl ((State.Parallel.conditioned s a i _).trans (.onRecordOf _ _ _)))

theorem State.Balanced.close_sampled {id : Nat} {r : FaultRecord} (hr : s.records.get? id = some r) : s.Sampled
    ((s.adjustAsset r.asset fun x => { x with integrator := 0, health := .healthy }).clearRecord id r.asset true) := by
  obtain ⟨x, hx, hid⟩ := State.faultIdOf_eq_some.1 (h.holder hr)
  obtain ⟨-, hw, -⟩ := (h.assetLaw hx).1 id hid
  exact .after (.conditioned s r.asset 0 .healthy) (.inr ((h.opened r.asset (f := fun x => x.conditioned 0 .healthy)
    fun _ => rfl).clearRecord_sampled (State.asset?_adjustAsset_self hx fun x => x.conditioned 0 .healthy) hid hw rfl true))

/-- A visit of an ABSORB walk names the descendant, and may open a record for an asset that waits (R132). -/
theorem State.Balanced.absorbAt_names {d : Nat} {x : Asset} (hx : s.asset? d = some x) (a id : Nat) :
    ∃ u, s.Names u d (some a) ∧ u.faultIdOf d = none ∧ u.Served (s.absorbAt a id d) := by
  have named := State.Names.setAbsorber hx (some a)
  have hy := State.asset?_setAbsorber hx (some a)
  rcases h.absorbAt_cases hx a id with ⟨hab, he⟩ | ⟨-, ⟨-, hid, -, he⟩ | ⟨z, -, -, hid, -, he⟩ | ⟨own, hf, -, hid, hw, he⟩
    | ⟨-, -, hid, -, he⟩⟩
  · refine ⟨s, ⟨rfl, fun _ _ => rfl, (State.reads_of_asset? hx).1.trans hab, fun _ _ => rfl, .inl rfl, rfl⟩, ?_, ?_⟩
    · rw [(State.reads_of_asset? hx).2]
      cases (h.assetLaw hx).placed with
      | healthy _ hid | absorbed _ _ _ hid | waits _ _ hid => exact hid
      | holding _ _ hab' =>
        rw [hab] at hab'
        cases hab'
    · rw [he]
      exact .inl (.refl s)
  · refine ⟨_, named, (State.reads_of_asset? hy).2.trans hid, ?_⟩
    rw [he]
    exact .inl (.refl _)
  · refine ⟨_, named, (State.reads_of_asset? hy).2.trans hid, ?_⟩
    rw [he]
    exact .inl ((State.Parallel.onRecordOf _ _ _).trans (.onRecordOf _ _ _))
  · have opened := (h.opened d (f := fun x => { x with absorbedBy := some a }) fun _ => rfl).raiseOn a
    have hy' := (State.raiseOn_asset? _ a d).trans hy
    have balanced := opened.settle_discarded (t := (((s.setAbsorber d (some a)).raiseOn a).discardRecord own d).notify
      (.absorbed own id)) hy' hid rfl rfl hw (fun _ => nofun) rfl
    refine ⟨_, (named.then_parallel (.onRecordOf _ _ _)).discard nofun hy' own (.absorbed own id),
      (State.reads_faultId hy' (id := none) rfl).2.2.2, ?_⟩
    rw [he]
    exact balanced.serveWaiting_served
  · refine ⟨_, named, (State.reads_of_asset? hy).2.trans hid, ?_⟩
    rw [he]
    exact .inl ((State.Parallel.onRecordOf _ _ _).trans (.leaveWaiting _ d))

/-- A visit of a RELEASE walk that acts gives the descendant to its highest holder (R134). -/
theorem State.Balanced.releaseAt_names {d : Nat} {x : Asset} (hx : s.asset? d = some x) {a : Nat}
    (hr : s.releases a x = true) : ∃ u, s.Names u d (s.highestHolder d) ∧ u.Served (s.releaseAt a d) := by
  refine ⟨_, State.Names.setAbsorber hx (s.highestHolder d), ?_⟩
  rw [State.releaseAt_eq hx, if_pos hr]
  obtain ⟨z, hz, -⟩ := State.releases_iff.1 hr
  cases hh : s.highestHolder d with
  | some z =>
    dsimp only
    split
    · exact .inl (.refl _)
    · exact .inl (.onRecordOf _ _ _)
  | none =>
    dsimp only
    split
    · exact .inl (.refl _)
    · next hf =>
      cases (h.assetLaw hx).placed with
      | healthy hf' => exact absurd hf' hf
      | absorbed _ _ _ hid =>
        exact State.openFault_served (s := s.setAbsorber d none) h.canonical.2.2.2 (State.asset?_setAbsorber hx none) hf rfl hid
      | holding _ _ hab | waits _ hab =>
        rw [hz] at hab
        cases hab

/-- A visit of the rebuild gives the asset to its highest holder (R138). -/
theorem State.Balanced.rebuildAt_names {v : Nat} {x : Asset} (hx : s.asset? v = some x) :
    ∃ u, s.Names u v (s.highestHolder v) ∧ (s.highestHolder v ≠ none → u.faultIdOf v = none) ∧ u.Served (s.rebuildAt v) := by
  have named := State.Names.setAbsorber hx (s.highestHolder v)
  cases hh : s.highestHolder v with
  | none =>
    rw [hh] at named
    refine ⟨_, named, fun hn => absurd rfl hn, ?_⟩
    rw [State.rebuildAt_alone hx hh]
    split
    · next hf =>
      exact State.openFault_served (s := s.setAbsorber v none) h.canonical.2.2.2 (State.asset?_setAbsorber hx none) hf.1 rfl
        hf.2.1
    · exact .inl (.refl _)
  | some a =>
    rw [hh] at named
    have hy := State.asset?_setAbsorber hx (some a)
    rcases h.rebuildAt_under hx hh with ⟨-, hid, -, he⟩ | ⟨z, -, -, hid, -, he⟩ | ⟨own, hf, -, hid, hw, he⟩ | ⟨-, -, hid, -, he⟩
    · refine ⟨_, named, fun _ => (State.reads_of_asset? hy).2.trans hid, ?_⟩
      rw [he]
      exact .inl (.refl _)
    · refine ⟨_, named, fun _ => (State.reads_of_asset? hy).2.trans hid, ?_⟩
      rw [he]
      exact .inl (.onRecordOf _ _ _)
    · have opened := h.opened v (f := fun x => { x with absorbedBy := some a }) fun _ => rfl
      have balanced := opened.settle_discarded (t := ((s.setAbsorber v (some a)).discardRecord own v).notify
        (.absorbed own (((s.setAbsorber v (some a)).faultIdOf a).getD 0))) hy hid rfl rfl hw (fun _ => nofun) rfl
      refine ⟨_, named.discard nofun hy own (.absorbed own (((s.setAbsorber v (some a)).faultIdOf a).getD 0)), fun _ => (State.reads_faultId hy (id := none) rfl).2.2.2, ?_⟩
      rw [he]
      exact balanced.serveWaiting_served.then_parallel (.onRecordOf _ _ _)
    · refine ⟨_, named, fun _ => (State.reads_of_asset? hy).2.trans hid, ?_⟩
      rw [he]
      exact .inl ((State.Parallel.leaveWaiting _ v).trans (.onRecordOf _ _ _))

end

end Sys2Proof.Machine
end

section
/-! PROOFS. The absorption law (O41): what opening, clearing and naming do to it, the walks that make up for what lags, and
what is left when none is (R124, R125, R131 to R135). -/

namespace Sys2Proof.Machine

/-! ## What the law is read from -/

theorem State.remaining_of_tree {s t : State} (h : t.tree = s.tree) (a : Nat) (cursor : List Nat) :
    t.remaining a cursor = s.remaining a cursor := by
  induction cursor generalizing a with
  | nil => exact State.descendantsOf_of_tree h a
  | cons c rest ih => simp only [State.remaining, State.childrenOf_of_tree h, State.descendantsOf_of_tree h, ih]

theorem State.visited_eq {s t : State} (htree : t.tree = s.tree) (hw : t.walking = s.walking) : t.visited = s.visited := by
  simp only [State.walking, Prod.mk.injEq] at hw
  obtain ⟨-, hm, hb⟩ := hw
  simp only [State.visited, hm, hb, State.forest_of_tree htree, ← State.tree_keys, htree]

theorem State.childrenOf_ne_nil {s : State} (h : s.Forest) {a d : Nat} (ha : a ∈ s.ancestorsOf d) : s.childrenOf a ≠ [] := by
  intro hnil
  have hd := h.mem_descendantsOf.2 ha
  rw [h.descendantsOf_eq, hnil] at hd
  cases hd

/-- Both kinds of walk that may still visit an asset are read from fields a relation keeps. -/
theorem State.absorbPending_of_same {s t : State} (htree : t.tree = s.tree) (hwalk : t.walk = s.walk) {b d : Nat}
    (hlist : ⟨b, .absorb⟩ ∈ s.walkList → ⟨b, .absorb⟩ ∈ t.walkList) (hb : t.faultIdOf b = s.faultIdOf b)
    (h : s.absorbPending b d) : t.absorbPending b d := by
  rcases h with h | ⟨w, hw, hroot, hkind, hrec, hd⟩
  · exact .inl (hlist h)
  · exact .inr ⟨w, hwalk ▸ hw, hroot, hkind, hrec.trans hb.symm, by rw [State.remaining_of_tree htree]; exact hd⟩

theorem State.releasePending_of_same {s t : State} (htree : t.tree = s.tree) (hwalk : t.walk = s.walk) {d : Nat}
    (hlist : ∀ a ∈ s.ancestorsOf d, s.faultIdOf a = none → ⟨a, .release⟩ ∈ s.walkList → ⟨a, .release⟩ ∈ t.walkList)
    (hb : ∀ a ∈ s.ancestorsOf d, s.faultIdOf a = none → t.faultIdOf a = none) (h : s.releasePending d) :
    t.releasePending d := by
  obtain ⟨a, ha, hn, hp⟩ := h
  refine ⟨a, by rw [State.ancestorsOf_of_tree htree]; exact ha, hb a ha hn, ?_⟩
  rcases hp with hp | ⟨w, hw, hroot, hkind, hd⟩
  · exact .inl (hlist a ha hn hp)
  · exact .inr ⟨w, hwalk ▸ hw, hroot, hkind, by rw [State.remaining_of_tree htree]; exact hd⟩

theorem State.absorptionLaw_of_nil {s : State} (h : s.visited = []) : s.AbsorptionLaw := by
  refine ⟨fun d hd => ?_, fun d hd => ?_, fun d hd => ?_⟩ <;> (rw [h] at hd; cases hd)

theorem State.visited_of_maintain {s : State} (h : s.mode = .maintain) : s.visited = [] := by simp [State.visited, h]

/-! ## Opening and clearing -/

theorem State.Parallel.walk {s t : State} (h : s.Parallel t) : t.walk = s.walk :=
  (Prod.mk.inj (State.walking_of_correlation h.correlation)).1

section
variable {s t : State} (h : s.AbsorptionLaw)
include h

theorem State.AbsorptionLaw.parallel (ht : s.Parallel t) : t.AbsorptionLaw := by
  obtain ⟨hanc, hcov, hhold⟩ := h
  have vis := State.visited_eq ht.tree (State.walking_of_correlation ht.correlation)
  have list := State.walkList_of_correlation ht.correlation
  have absorb {b d : Nat} (hp : s.absorbPending b d) : t.absorbPending b d :=
    State.absorbPending_of_same ht.tree ht.walk (fun he => list ▸ he) (ht.holds b) hp
  refine ⟨fun d hd z hz => ?_, fun d hd b hb hh => ?_, fun d hd z hz => ?_⟩ <;> rw [vis] at hd
  · rw [ht.absorber] at hz
    rw [State.ancestorsOf_of_tree ht.tree]
    exact hanc d hd z hz
  · rw [State.ancestorsOf_of_tree ht.tree] at hb
    rw [ht.holds] at hh
    refine (hcov d hd b hb hh).imp absorb fun ⟨z, hz, hzb⟩ => ⟨z, by rw [ht.absorber]; exact hz, ?_⟩
    rw [State.ancestorsOf_of_tree ht.tree]
    exact hzb
  · rw [ht.absorber] at hz
    rcases hhold d hd z hz with hp | hp | ⟨b, hb, hh, hp⟩
    · exact .inl (by rw [ht.holds]; exact hp)
    · exact .inr (.inl (State.releasePending_of_same ht.tree ht.walk (fun _ _ _ he => list ▸ he)
        (fun a _ hn => (ht.holds a).trans hn) hp))
    · exact .inr (.inr ⟨b, by rw [State.ancestorsOf_of_tree ht.tree]; exact hb, by rw [ht.holds]; exact hh, absorb hp⟩)

/-- A record opened: its ABSORB walk is queued for all that is below (R103). -/
theorem State.AbsorptionLaw.opens (hf : s.Forest) {a : Nat} (ht : s.Opens t a) : t.AbsorptionLaw := by
  obtain ⟨hanc, hcov, hhold⟩ := h
  have vis := State.visited_eq ht.tree ht.walking
  have walk : t.walk = s.walk := (Prod.mk.inj ht.walking).1
  have queued {d : Nat} (ha : a ∈ s.ancestorsOf d) : t.absorbPending a d := by
    refine .inl ?_
    rw [ht.walkList, if_neg (State.childrenOf_ne_nil hf ha)]
    exact mem_queueEntry_self _ _ _
  have kept {e : WalkEntry} (he : e ∈ s.walkList) (hne : e.root ≠ a) : e ∈ t.walkList := by
    rw [ht.walkList]
    split
    · exact he
    · exact mem_queueEntry_of_ne he hne _
  have absorb {b d : Nat} (hb : b ∈ s.ancestorsOf d) (hp : s.absorbPending b d) : t.absorbPending b d := by
    by_cases hba : b = a
    · exact hba ▸ queued (hba ▸ hb)
    · exact State.absorbPending_of_same ht.tree walk (fun he => kept he hba) (ht.holds b hba) hp
  refine ⟨fun d hd z hz => ?_, fun d hd b hb hh => ?_, fun d hd z hz => ?_⟩ <;> rw [vis] at hd
  · rw [ht.absorber] at hz
    rw [State.ancestorsOf_of_tree ht.tree]
    exact hanc d hd z hz
  · rw [State.ancestorsOf_of_tree ht.tree] at hb
    by_cases hba : b = a
    · exact .inl (hba ▸ queued (hba ▸ hb))
    · rw [ht.holds b hba] at hh
      refine (hcov d hd b hb hh).imp (absorb hb) fun ⟨z, hz, hzb⟩ => ⟨z, by rw [ht.absorber]; exact hz, ?_⟩
      rw [State.ancestorsOf_of_tree ht.tree]
      exact hzb
  · rw [ht.absorber] at hz
    by_cases held : t.faultIdOf z ≠ none
    · exact .inl held
    · by_cases ha : a ∈ s.ancestorsOf d
      · exact .inr (.inr ⟨a, by rw [State.ancestorsOf_of_tree ht.tree]; exact ha, ht.held, queued ha⟩)
      · have other {b : Nat} (hb : b ∈ s.ancestorsOf d) : b ≠ a := fun he => ha (he ▸ hb)
        rcases hhold d hd z hz with hp | hp | ⟨b, hb, hh, hp⟩
        · have hza : z ≠ a := fun he => hp (he ▸ ht.fresh)
          exact absurd (by rw [ht.holds z hza]; exact hp) held
        · exact .inr (.inl (State.releasePending_of_same ht.tree walk (fun b hb _ he => kept he (other hb))
            (fun b hb hn => (ht.holds b (other hb)).trans hn) hp))
        · exact .inr (.inr ⟨b, by rw [State.ancestorsOf_of_tree ht.tree]; exact hb, by rw [ht.holds b (other hb)]; exact hh,
            absorb hb hp⟩)

/-- A record cleared: a RELEASE walk is queued for what names its asset (R107, R118). -/
theorem State.AbsorptionLaw.clears (hf : s.Forest) {a : Nat} (ht : s.Clears t a) : t.AbsorptionLaw := by
  obtain ⟨hanc, hcov, hhold⟩ := h
  have vis := State.visited_eq ht.tree ht.walking
  have walk : t.walk = s.walk := (Prod.mk.inj ht.walking).1
  have queued {d : Nat} (ha : a ∈ s.ancestorsOf d) : t.releasePending d := by
    refine ⟨a, by rw [State.ancestorsOf_of_tree ht.tree]; exact ha, ht.gone, .inl ?_⟩
    rw [ht.walkList, if_neg (State.childrenOf_ne_nil hf ha)]
    exact mem_queueEntry_self _ _ _
  have kept {e : WalkEntry} (he : e ∈ s.walkList) (hne : e.root ≠ a) : e ∈ t.walkList := by
    rw [ht.walkList]
    split
    · exact he
    · exact mem_queueEntry_of_ne he hne _
  have absorb {b d : Nat} (hba : b ≠ a) (hp : s.absorbPending b d) : t.absorbPending b d :=
    State.absorbPending_of_same ht.tree walk (fun he => kept he hba) (ht.holds b hba) hp
  refine ⟨fun d hd z hz => ?_, fun d hd b hb hh => ?_, fun d hd z hz => ?_⟩ <;> rw [vis] at hd
  · rw [ht.absorber] at hz
    rw [State.ancestorsOf_of_tree ht.tree]
    exact hanc d hd z hz
  · rw [State.ancestorsOf_of_tree ht.tree] at hb
    have hba : b ≠ a := fun he => hh (he ▸ ht.gone)
    rw [ht.holds b hba] at hh
    refine (hcov d hd b hb hh).imp (absorb hba) fun ⟨z, hz, hzb⟩ => ⟨z, by rw [ht.absorber]; exact hz, ?_⟩
    rw [State.ancestorsOf_of_tree ht.tree]
    exact hzb
  · rw [ht.absorber] at hz
    by_cases ha : a ∈ s.ancestorsOf d
    · exact .inr (.inl (queued ha))
    · have other {b : Nat} (hb : b ∈ s.ancestorsOf d) : b ≠ a := fun he => ha (he ▸ hb)
      have hza := other (hanc d hd z hz)
      rcases hhold d hd z hz with hp | hp | ⟨b, hb, hh, hp⟩
      · exact .inl (by rw [ht.holds z hza]; exact hp)
      · exact .inr (.inl (State.releasePending_of_same ht.tree walk (fun b hb _ he => kept he (other hb))
          (fun b hb hn => (ht.holds b (other hb)).trans hn) hp))
      · exact .inr (.inr ⟨b, by rw [State.ancestorsOf_of_tree ht.tree]; exact hb, by rw [ht.holds b (other hb)]; exact hh,
          absorb (other hb) hp⟩)

theorem State.AbsorptionLaw.served (hf : s.Forest) (ht : s.Served t) : t.AbsorptionLaw :=
  ht.elim h.parallel fun ⟨_, ha⟩ => h.opens hf ha

theorem State.AbsorptionLaw.sampled (hf : s.Forest) (ht : s.Sampled t) : t.AbsorptionLaw := by
  rcases ht with ht | ⟨u, a, hu, ht⟩
  · exact h.served hf ht
  · exact (h.clears hf hu).served (hf.of_tree hu.tree) ht

end

/-! ## Visits -/

section
variable {s u : State} {w : Walk} {cursor : List Nat} {d : Nat}

/-- A walk in flight at its next cursor (R130, log 15). -/
def State.walkAt (s : State) (w : Walk) (cursor : List Nat) : Option Walk :=
  if (nextCursor s w.root cursor).isNone then none else some { w with cursor := cursor }

/-- With its next cursor a walk has all before it but the asset it visits. -/
theorem State.Forest.walkAt_remaining (hf : s.Forest) (hn : s.walkNext w = some cursor)
    (hd : d = cursor.getLastD w.root) {e : Nat} (he : e ∈ s.remaining w.root w.cursor) (hne : e ≠ d) :
    ∃ w' ∈ s.walkAt w cursor, w'.root = w.root ∧ w'.kind = w.kind ∧ w'.recorded = w.recorded
      ∧ e ∈ s.remaining w'.root w'.cursor := by
  rw [hf.remaining_next hn, ← hd] at he
  have behind := (List.mem_cons.1 he).resolve_left hne
  unfold State.walkAt
  cases hnext : nextCursor s w.root cursor with
  | none =>
    rw [hf.remaining_none hnext] at behind
    cases behind
  | some next => exact ⟨{ w with cursor := cursor }, by simp, rfl, rfl, rfl, behind⟩

/-- The asset a walk visits next is still before it, with all that is below. -/
theorem State.Forest.mem_remaining_next (hf : s.Forest) (hn : s.walkNext w = some cursor)
    (hd : d = cursor.getLastD w.root) : d ∈ s.remaining w.root w.cursor := by
  rw [hf.remaining_next hn, ← hd]
  exact List.mem_cons_self

/-- What the law asks of a visited asset of its own accord, whatever walk is in flight. -/
structure State.Covered (s : State) (d : Nat) : Prop where
  above : ∀ z ∈ s.absorbedByOf d, z ∈ s.ancestorsOf d
  covers : ∀ b ∈ s.ancestorsOf d, s.faultIdOf b ≠ none →
    ⟨b, .absorb⟩ ∈ s.walkList ∨ ∃ z ∈ s.absorbedByOf d, z = b ∨ z ∈ s.ancestorsOf b
  holds : ∀ z ∈ s.absorbedByOf d, s.faultIdOf z ≠ none

/-- A visit that leaves its asset covered, and takes at most that asset's own record, moves the walk on (R131, R133). -/
theorem State.AbsorptionLaw.visit (h : s.AbsorptionLaw) (hf : s.Forest) (hw : s.walk = some w)
    (hn : s.walkNext w = some cursor) (hd : d = cursor.getLastD w.root) {z : Option Nat} (hu : s.Names u d z)
    (hc : u.Covered d)
    (hroot : u.faultIdOf d = s.faultIdOf d
      ∨ w.kind = .absorb ∧ w.recorded = s.faultIdOf w.root ∧ s.faultIdOf w.root ≠ none) :
    (u.setWalk (s.walkAt w cursor)).AbsorptionLaw := by
  obtain ⟨hanc, hcov, hhold⟩ := h
  have before := hf.mem_remaining_next hn hd
  have below : w.root ∈ s.ancestorsOf d := hf.mem_descendantsOf.1 (hf.remaining_subset before)
  have rootHeld : u.faultIdOf w.root = s.faultIdOf w.root := hu.holds _ fun he => hf.irrefl d (he ▸ below)
  have vis : (u.setWalk (s.walkAt w cursor)).visited = s.visited :=
    State.visited_eq (t := u) hu.tree (State.walking_of_correlation hu.correlation)
  have list : u.walkList = s.walkList := State.walkList_of_correlation hu.correlation
  have anc (e : Nat) : (u.setWalk (s.walkAt w cursor)).ancestorsOf e = s.ancestorsOf e :=
    State.ancestorsOf_of_tree (t := u.setWalk (s.walkAt w cursor)) (s := s) hu.tree e
  have rem (e : Nat) (c : List Nat) : (u.setWalk (s.walkAt w cursor)).remaining e c = s.remaining e c :=
    State.remaining_of_tree (t := u.setWalk (s.walkAt w cursor)) (s := s) hu.tree e c
  have ancU (e : Nat) : u.ancestorsOf e = s.ancestorsOf e := State.ancestorsOf_of_tree hu.tree e
  have holder {b : Nat} (hb : u.faultIdOf b ≠ none) : u.faultIdOf b = s.faultIdOf b := by
    by_cases hbd : b = d
    · subst hbd
      exact hu.lost.resolve_right fun he => hb he.1
    · exact hu.holds b hbd
  have absorb {b e : Nat} (hb : u.faultIdOf b ≠ none) (he : e ≠ d) (hp : s.absorbPending b e) :
      (u.setWalk (s.walkAt w cursor)).absorbPending b e := by
    rcases hp with hp | ⟨w₀, hw₀, hr₀, hk₀, hrec₀, he₀⟩
    · exact .inl (list ▸ hp)
    · obtain rfl : w = w₀ := Option.some.inj (hw.symm.trans hw₀)
      obtain ⟨w', hw', hr', hk', hrec', he'⟩ := hf.walkAt_remaining hn hd (hr₀ ▸ he₀) he
      exact .inr ⟨w', hw', hr'.trans hr₀, hk'.trans hk₀, hrec'.trans (hrec₀.trans (holder hb).symm),
        by rw [rem, ← hr₀, ← hr']; exact he'⟩
  have release {e : Nat} (he : e ≠ d) (hp : s.releasePending e) : (u.setWalk (s.walkAt w cursor)).releasePending e := by
    obtain ⟨b, hb, hnone, hp⟩ := hp
    refine ⟨b, by rw [anc]; exact hb, ?_, hp.imp (fun hp => list ▸ hp) fun ⟨w₀, hw₀, hr₀, hk₀, he₀⟩ => ?_⟩
    · by_contra hb
      exact hb ((holder hb).trans hnone)
    · obtain rfl : w = w₀ := Option.some.inj (hw.symm.trans hw₀)
      obtain ⟨w', hw', hr', hk', -, he'⟩ := hf.walkAt_remaining hn hd (hr₀ ▸ he₀) he
      exact ⟨w', hw', hr'.trans hr₀, hk'.trans hk₀, by rw [rem, ← hr₀, ← hr']; exact he'⟩
  -- What is below the asset visited is still before an ABSORB walk of the root.
  have onward {e : Nat} (he : d ∈ s.ancestorsOf e) (hlost : ¬u.faultIdOf d = s.faultIdOf d) :
      ∃ b ∈ s.ancestorsOf e, u.faultIdOf b ≠ none ∧ (u.setWalk (s.walkAt w cursor)).absorbPending b e := by
    obtain ⟨hk, hrec, hheld⟩ := hroot.resolve_left hlost
    refine ⟨w.root, hf.trans below he, rootHeld ▸ hheld, absorb (rootHeld ▸ hheld) ?_ ?_⟩
    · rintro rfl
      exact hf.irrefl e he
    · exact .inr ⟨w, hw, rfl, hk, hrec, hf.remaining_closed before he⟩
  refine ⟨fun e he y hy => ?_, fun e he b hb hh => ?_, fun e he y hy => ?_⟩ <;> rw [vis] at he
  · rw [anc]
    by_cases hed : e = d
    · exact hed ▸ ancU d ▸ hc.above y (hed ▸ hy)
    · exact hanc e he y (hu.absorber e hed ▸ hy)
  · rw [anc] at hb
    by_cases hed : e = d
    · subst hed
      rcases hc.covers b (ancU e ▸ hb) hh with hp | ⟨y, hy, hyb⟩
      · exact .inl (.inl hp)
      · exact .inr ⟨y, hy, by rw [anc, ← ancU]; exact hyb⟩
    · have hs : s.faultIdOf b ≠ none := holder hh ▸ hh
      rcases hcov e he b hb hs with hp | ⟨y, hy, hyb⟩
      · exact .inl (absorb hh hed hp)
      · exact .inr ⟨y, (hu.absorber e hed).symm ▸ hy, by rw [anc]; exact hyb⟩
  · by_cases hed : e = d
    · exact .inl (hc.holds y (hed ▸ hy))
    · have hys : y ∈ s.absorbedByOf e := hu.absorber e hed ▸ hy
      by_cases hheld : u.faultIdOf y ≠ none
      · exact .inl hheld
      · by_cases hon : d ∈ s.ancestorsOf e ∧ ¬u.faultIdOf d = s.faultIdOf d
        · obtain ⟨b, hb, hh, hp⟩ := onward hon.1 hon.2
          exact .inr (.inr ⟨b, by rw [anc]; exact hb, hh, hp⟩)
        · have same {b : Nat} (hb : b ∈ s.ancestorsOf e) : u.faultIdOf b = s.faultIdOf b := by
            by_cases hbd : b = d
            · subst hbd
              by_contra hne
              exact hon ⟨hb, hne⟩
            · exact hu.holds b hbd
          rcases hhold e he y hys with hp | hp | ⟨b, hb, hh, hp⟩
          · exact absurd (by rw [same (hanc e he y hys)]; exact hp) hheld
          · exact .inr (.inl (release hed hp))
          · exact .inr (.inr ⟨b, by rw [anc]; exact hb, by rw [← same hb] at hh; exact hh,
              absorb (by rw [same hb]; exact hh) hed hp⟩)

end

end Sys2Proof.Machine
end

section
/-! PROOFS. The absorption law, event by event, and what it comes to when no walk is left (O41). -/

namespace Sys2Proof.Machine

/-! ## Walks on a tree that an operation leaves -/

theorem nextCursor_of_tree {s t : State} (h : t.tree = s.tree) (a : Nat) (cursor : List Nat) :
    nextCursor t a cursor = nextCursor s a cursor := by
  induction cursor generalizing a with
  | nil => simp only [nextCursor, State.childrenOf_of_tree h]
  | cons c rest ih => simp only [nextCursor, State.childrenOf_of_tree h, State.nextSibling, ih]

theorem State.advanceWalk_eq {s t : State} (h : t.tree = s.tree) (w : Walk) (cursor : List Nat) :
    t.advanceWalk w cursor = t.setWalk (s.walkAt w cursor) := by
  rw [State.advanceWalk, nextCursor_of_tree h, State.walkAt]

theorem State.Served.setWalk {s t : State} (h : s.Served t) (w : Option Walk) : (s.setWalk w).Served (t.setWalk w) := by
  rcases h with h | ⟨a, h⟩
  · have hc := h.correlation
    simp only [State.correlation, Prod.mk.injEq] at hc
    obtain ⟨hl, -, hm, hb⟩ := hc
    exact .inl ⟨h.tree, h.absorber, h.holds, by simp only [State.correlation, State.setWalk, hl, hm, hb]⟩
  · have hw := h.walking
    simp only [State.walking, Prod.mk.injEq] at hw
    obtain ⟨-, hm, hb⟩ := hw
    exact .inr ⟨a, h.tree, h.absorber, h.holds, h.fresh, h.held, h.walkList,
      by simp only [State.walking, State.setWalk, hm, hb]⟩

theorem State.Served.tree {s t : State} (h : s.Served t) : t.tree = s.tree := h.elim (·.tree) fun ⟨_, h⟩ => h.tree

theorem State.visited_of_run {s : State} (h : s.mode = .run) : s.visited = s.assets.map Prod.fst := by
  simp [State.visited, h]

theorem State.mem_visited_of_run {s : State} (hf : s.Forest) (h : s.mode = .run) {d : Nat} :
    d ∈ s.visited ↔ s.asset? d ≠ none := by
  rw [State.visited_of_run h]
  exact (Table.has_iff_mem_keys hf.wf).symm

theorem State.Balanced.absorber_of_holder {s : State} (h : s.Balanced) {a : Nat} (ha : s.faultIdOf a ≠ none) :
    s.absorbedByOf a = none := by
  obtain ⟨id, hid⟩ := Option.ne_none_iff_exists'.1 ha
  obtain ⟨x, hx, hxid⟩ := State.faultIdOf_eq_some.1 hid
  rw [(State.reads_of_asset? hx).1]
  exact ((h.assetLaw hx).1 id hxid).1

/-! ## Visits -/

section
variable {s : State} (h : s.AbsorptionLaw) (hf : s.Forest) (hb : s.Balanced)
include h hf hb

theorem State.AbsorptionLaw.absorbVisit_step {w : Walk} {id : Nat} {cursor : List Nat} (hm : s.mode = .run)
    (hw : s.walk = some w) (hk : w.kind = .absorb) (hid : w.recorded = some id) (hr : s.faultIdOf w.root = some id)
    (hn : s.walkNext w = some cursor) :
    ((s.absorbAt w.root id (cursor.getLastD w.root)).advanceWalk w cursor).AbsorptionLaw := by
  generalize hd : cursor.getLastD w.root = d
  have below : w.root ∈ s.ancestorsOf d :=
    hf.mem_descendantsOf.1 (hf.remaining_subset (hf.mem_remaining_next hn hd.symm))
  obtain ⟨x, hx⟩ := Option.ne_none_iff_exists'.1 (State.asset?_ne_none_of_ancestor below)
  obtain ⟨u, hu, hlost, hserved⟩ := hb.absorbAt_names hx w.root id
  have held : s.faultIdOf w.root ≠ none := by rw [hr]; exact nofun
  have rootHeld : u.faultIdOf w.root = s.faultIdOf w.root := hu.holds _ fun he => hf.irrefl d (he ▸ below)
  have anc (e : Nat) : u.ancestorsOf e = s.ancestorsOf e := State.ancestorsOf_of_tree hu.tree e
  -- Whatever holder is above the root, the root awaits its walk.
  have awaits {b : Nat} (hab : b ∈ s.ancestorsOf w.root) (hh : s.faultIdOf b ≠ none) : ⟨b, .absorb⟩ ∈ s.walkList := by
    have hroot := (State.mem_visited_of_run hf hm).2 (hf.ancestor_present below)
    rcases h.2.1 w.root hroot b hab hh with (hp | ⟨w₀, hw₀, hr₀, -⟩) | ⟨z, hz, -⟩
    · exact hp
    · obtain rfl : w = w₀ := Option.some.inj (hw.symm.trans hw₀)
      exact absurd (hr₀ ▸ hab) (hf.irrefl _)
    · rw [hb.absorber_of_holder held] at hz
      cases hz
  have covered : u.Covered d := by
    refine ⟨fun z hz => ?_, fun b hab hh => ?_, fun z hz => ?_⟩
    · rw [hu.named] at hz
      cases hz
      rw [anc]
      exact below
    · rw [anc] at hab
      have hbd : b ≠ d := fun he => hf.irrefl d (he ▸ hab)
      rw [hu.holds b hbd] at hh
      rcases hf.chain below hab with he | he | he
      · exact .inr ⟨w.root, hu.named, .inl he⟩
      · exact .inr ⟨w.root, hu.named, .inr (by rw [anc]; exact he)⟩
      · exact .inl (by rw [State.walkList_of_correlation hu.correlation]; exact awaits he hh)
    · rw [hu.named] at hz
      cases hz
      rw [rootHeld]
      exact held
  have moved := h.visit hf hw hn hd.symm hu covered (.inr ⟨hk, hid.trans hr.symm, held⟩)
  rw [State.advanceWalk_eq (hserved.tree.trans hu.tree)]
  exact moved.served (hf.of_tree hu.tree) (hserved.setWalk _)

theorem State.AbsorptionLaw.releaseVisit_step {w : Walk} {cursor : List Nat} (hm : s.mode = .run)
    (hw : s.walk = some w) (hk : w.kind = .release)
    (hn : s.walkNext w = some cursor) :
    ((s.releaseAt w.root (cursor.getLastD w.root)).advanceWalk w cursor).AbsorptionLaw := by
  generalize hd : cursor.getLastD w.root = d
  have below : w.root ∈ s.ancestorsOf d :=
    hf.mem_descendantsOf.1 (hf.remaining_subset (hf.mem_remaining_next hn hd.symm))
  have present := State.asset?_ne_none_of_ancestor below
  obtain ⟨x, hx⟩ := Option.ne_none_iff_exists'.1 present
  have hvis := (State.mem_visited_of_run hf hm).2 present
  by_cases hrel : s.releases w.root x = true
  · obtain ⟨u, hu, hserved⟩ := hb.releaseAt_names hx hrel
    have anc (e : Nat) : u.ancestorsOf e = s.ancestorsOf e := State.ancestorsOf_of_tree hu.tree e
    have unheld : s.faultIdOf d = none := by
      obtain ⟨z, hz, -⟩ := State.releases_iff.1 hrel
      by_contra hne
      have := hb.absorber_of_holder hne
      rw [(State.reads_of_asset? hx).1, hz] at this
      cases this
    have same (b : Nat) : u.faultIdOf b = s.faultIdOf b := by
      by_cases hbd : b = d
      · subst hbd
        exact hu.lost.elim (fun he => he) fun he => he.1.trans unheld.symm
      · exact hu.holds b hbd
    have covered : u.Covered d := by
      refine ⟨fun z hz => ?_, fun b hab hh => ?_, fun z hz => ?_⟩
      · rw [hu.named] at hz
        rw [anc]
        exact State.highestHolder_mem hz
      · rw [anc] at hab
        rw [same] at hh
        cases hz : s.highestHolder d with
        | none => exact absurd (State.highestHolder_eq_none.1 hz b hab) hh
        | some z => exact .inr ⟨z, hu.named.trans hz, by rw [anc]; exact hf.highestHolder_above hz hab hh⟩
      · rw [hu.named] at hz
        rw [same]
        exact State.highestHolder_holds hz
    have moved := h.visit hf hw hn hd.symm hu covered (.inl (same d))
    rw [State.advanceWalk_eq (hserved.tree.trans hu.tree)]
    exact moved.served (hf.of_tree hu.tree) (hserved.setWalk _)
  · have alone : s.releaseAt w.root d = s := by rw [State.releaseAt_eq hx, if_neg hrel]
    have left {z : Nat} (hz : z ∈ s.absorbedByOf d) : s.faultIdOf z ≠ none := by
      rw [(State.reads_of_asset? hx).1] at hz
      exact fun hnone => hrel (State.releases_iff.2 ⟨z, hz, .inr hnone⟩)
    have covered : s.Covered d := by
      refine ⟨h.1 d hvis, fun b hab hh => ?_, fun z hz => left hz⟩
      rcases h.2.1 d hvis b hab hh with (hp | ⟨w₀, hw₀, -, hk₀, -⟩) | hz
      · exact .inl hp
      · obtain rfl : w = w₀ := Option.some.inj (hw.symm.trans hw₀)
        rw [hk] at hk₀
        cases hk₀
      · exact .inr hz
    have stays : s.Names s d (s.absorbedByOf d) := ⟨rfl, fun _ _ => rfl, rfl, fun _ _ => rfl, .inl rfl, rfl⟩
    rw [alone, State.advanceWalk_eq rfl]
    exact h.visit hf hw hn hd.symm stays covered (.inl rfl)

end

/-- A walk with nothing more to do may end. -/
theorem State.AbsorptionLaw.abandon {s : State} (h : s.AbsorptionLaw) (hf : s.Forest) (hs : ∀ w ∈ s.walk, s.Spent w) :
    (s.setWalk none).AbsorptionLaw := by
  obtain ⟨hanc, hcov, hhold⟩ := h
  have absorb {b d : Nat} (hh : s.faultIdOf b ≠ none) (hp : s.absorbPending b d) : (s.setWalk none).absorbPending b d := by
    rcases hp with hp | ⟨w, hw, rfl, hk, hrec, hd⟩
    · exact .inl hp
    · rcases hs w hw with hn | ⟨-, hn | hn⟩ | ⟨hk', -⟩
      · rw [hf.remaining_none hn] at hd
        cases hd
      · exact absurd (hrec.symm.trans hn) hh
      · exact absurd hrec.symm hn
      · rw [hk] at hk'
        cases hk'
  have release {d : Nat} (hp : s.releasePending d) : (s.setWalk none).releasePending d := by
    obtain ⟨a, ha, hn, hp | ⟨w, hw, rfl, hk, hd⟩⟩ := hp
    · exact ⟨a, ha, hn, .inl hp⟩
    · rcases hs w hw with hn' | ⟨hk', -⟩ | ⟨-, hn'⟩
      · rw [hf.remaining_none hn'] at hd
        cases hd
      · rw [hk] at hk'
        cases hk'
      · exact absurd hn hn'
  exact ⟨hanc, fun d hd b hb hh => (hcov d hd b hb hh).imp_left (absorb hh),
    fun d hd z hz => (hhold d hd z hz).imp_right fun hp => hp.imp release fun ⟨b, hb, hh, hp⟩ => ⟨b, hb, hh, absorb hh hp⟩⟩

/-- The walk that begins takes over from its entry (R129, R131). -/
theorem State.AbsorptionLaw.beginWalk {s : State} (h : s.AbsorptionLaw) (hf : s.Forest) : s.beginWalk.AbsorptionLaw := by
  unfold State.beginWalk
  split
  · next e rest hm hw hl =>
    obtain ⟨hanc, hcov, hhold⟩ := h
    have begun {b d : Nat} (hb : b ∈ s.ancestorsOf d) (hroot : e.root = b)
        (hh : e.kind = .absorb → s.faultIdOf b ≠ none) : s.endsAtOnce (s.walkOf e) = false := by
      rw [State.endsAtOnce, decide_eq_false_iff_not]
      rintro (⟨hk, hrec⟩ | hnext)
      · have hk' : e.kind = .absorb := hk
        have hrec' : (if e.kind = .absorb then s.faultIdOf e.root else none).isNone = true := hrec
        rw [if_pos hk', Option.isNone_iff_eq_none, hroot] at hrec'
        exact hh hk' hrec'
      · have hd := hf.mem_descendantsOf.2 hb
        have none : s.remaining e.root [] = [] := hf.remaining_none (Option.isNone_iff_eq_none.1 hnext)
        rw [State.remaining, hroot] at none
        rw [none] at hd
        cases hd
    have absorb {b d : Nat} (hb : b ∈ s.ancestorsOf d) (hh : s.faultIdOf b ≠ none) (hp : s.absorbPending b d) :
        ((s.setWalkList rest).setWalk (if s.endsAtOnce (s.walkOf e) then none else some (s.walkOf e))).absorbPending b d := by
      rcases hp with hp | ⟨w, hw', -⟩
      · rw [hl] at hp
        rcases List.mem_cons.1 hp with he | hp
        · subst he
          have going := begun hb rfl fun _ => hh
          refine .inr ⟨s.walkOf ⟨b, .absorb⟩, ?_, rfl, rfl, rfl, hf.mem_descendantsOf.2 hb⟩
          rw [going]
          rfl
        · exact .inl hp
      · rw [hw] at hw'
        cases hw'
    have release {d : Nat} (hp : s.releasePending d) :
        ((s.setWalkList rest).setWalk (if s.endsAtOnce (s.walkOf e) then none else some (s.walkOf e))).releasePending d := by
      obtain ⟨b, hb, hn, hp | ⟨w, hw', -⟩⟩ := hp
      · refine ⟨b, hb, hn, ?_⟩
        rw [hl] at hp
        rcases List.mem_cons.1 hp with he | hp
        · subst he
          have going := begun hb rfl nofun
          refine .inr ⟨s.walkOf ⟨b, .release⟩, ?_, rfl, rfl, hf.mem_descendantsOf.2 hb⟩
          rw [going]
          rfl
        · exact .inl hp
      · rw [hw] at hw'
        cases hw'
    exact ⟨hanc, fun d hd b hb hh => (hcov d hd b hb hh).imp_left (absorb hb hh),
      fun d hd z hz => (hhold d hd z hz).imp_right fun hp => hp.imp release fun ⟨b, hb, hh, hp⟩ =>
        ⟨b, hb, hh, absorb hb hh hp⟩⟩
  · exact h

/-! ## The rebuild (R138, R176) -/

/-- In the order of the forest no asset stands before one that is above it. -/
theorem State.Forest.forest_pairwise {s : State} (h : s.Forest) : s.forest.Pairwise fun x y => y ∉ s.ancestorsOf x := by
  have lists {l : List Nat} {g : Nat → List Nat} (hl : l.Nodup) (hg : ∀ c ∈ l, ∀ d ∈ g c, d ∈ s.descendantsOf c)
      (hp : ∀ c ∈ l, (g c).Pairwise fun x y => y ∉ s.ancestorsOf x)
      (ha : ∀ c ∈ l, ∀ c' ∈ l, c ≠ c' → c ∉ s.ancestorsOf c') :
      (l.flatMap fun c => c :: g c).Pairwise fun x y => y ∉ s.ancestorsOf x := by
    rw [List.pairwise_flatMap]
    refine ⟨fun c hc => List.pairwise_cons.2 ⟨fun y hy hyc => ?_, hp c hc⟩, hl.imp_of_mem fun {c c'} hc hc' hne x hx y hy hyx => ?_⟩
    · exact h.irrefl c (h.trans (h.mem_descendantsOf.1 (hg c hc y hy)) hyc)
    · have mine {c x : Nat} (hc : c ∈ l) (hx : x ∈ c :: g c) : x ∈ c :: s.descendantsOf c :=
        List.mem_cons.2 ((List.mem_cons.1 hx).imp_right (hg c hc x))
      refine h.apart hne (ha c hc c' hc' hne) (ha c' hc' c hc hne.symm) (mine hc hx) (List.mem_cons_of_mem _ ?_)
      rw [h.mem_descendantsOf]
      rcases List.mem_cons.1 (mine hc' hy) with rfl | hy
      · exact hyx
      · exact h.trans (h.mem_descendantsOf.1 hy) hyx
  have below (f a : Nat) : ∀ d ∈ descendantsUpTo s f a, d ∈ s.descendantsOf a := fun d hd => by
    obtain ⟨n, h1, -, hn⟩ := (mem_descendantsUpTo h.wf).1 hd
    exact h.mem_descendantsOf.2 (h.mem_ancestorsOf.2 ⟨n, h1, hn⟩)
  have tree (f a : Nat) : (descendantsUpTo s f a).Pairwise fun x y => y ∉ s.ancestorsOf x := by
    induction f generalizing a with
    | zero => exact List.Pairwise.nil
    | succ f ih =>
      refine lists (State.nodup_of_pairwise_lt (h.childrenOf_pairwise a)) (fun c _ => below f c) (fun c _ => ih c) ?_
      intro c hc c' hc' _
      exact h.sibling_not_above ((State.mem_childrenOf h.wf).1 hc) ((State.mem_childrenOf h.wf).1 hc')
  refine lists (State.nodup_of_pairwise_lt h.roots_pairwise) (fun r _ d hd => hd) (fun r _ => tree _ r) ?_
  intro r _ r' hr' _
  rw [h.ancestorsOf_eq, ((State.mem_roots h.wf).1 hr').2]
  exact List.not_mem_nil

section
variable {s : State} (hf : s.Forest) {b : Rebuild} (hm : s.mode = .entering) (hb : s.rebuild = some b)
include hf hm hb

/-- The assets the rebuild has visited are those before the next in the order of the forest. -/
theorem State.Forest.forest_of_rebuildNext {v : Nat} (hv : s.rebuildNext b.last = some v) :
    ∃ post, s.forest = s.visited ++ v :: post := by
  cases hl : b.last with
  | none =>
    rw [hl, State.rebuildNext, List.head?_eq_some_iff] at hv
    obtain ⟨post, he⟩ := hv
    refine ⟨post, ?_⟩
    rw [he]
    simp [State.visited, hm, hb, hl]
  | some w =>
    rw [hl] at hv
    obtain ⟨pre, post, he⟩ := hf.split_of_rebuildNext hv
    refine ⟨post, ?_⟩
    simp only [State.visited, hm, hb, hl]
    rw [he, takeWhile_ne_append (hf.not_mem_before he)]
    simp

/-- When none is left, all have been visited. -/
theorem State.Forest.visited_of_rebuildNext_none (hv : s.rebuildNext b.last = none) {d : Nat} (hd : s.asset? d ≠ none) :
    d ∈ s.visited := by
  rw [← hf.mem_forest] at hd
  cases hl : b.last with
  | none =>
    rw [hl, State.rebuildNext, List.head?_eq_none_iff] at hv
    rw [hv] at hd
    cases hd
  | some w =>
    simp only [State.visited, hm, hb, hl]
    rw [hl] at hv
    by_cases hw : w ∈ s.forest
    · obtain ⟨pre, post, he⟩ := List.append_of_mem hw
      rw [hf.rebuildNext_of_split he, List.head?_eq_none_iff] at hv
      subst hv
      rw [he, takeWhile_ne_append (hf.not_mem_before he), ← he]
      exact hd
    · refine List.mem_append_left _ ?_
      rw [List.takeWhile_eq_self_iff.2 fun x hx => by rw [decide_eq_true_eq]; exact fun he => hw (he ▸ hx)]
      exact hd

omit hf hm hb in
/-- The rebuild's next asset is added to those visited. -/
theorem State.Forest.visited_rebuilt {t : State} (hft : t.Forest) {v : Nat} {pre post : List Nat}
    (he : t.forest = pre ++ v :: post) (hm : t.mode = .entering) (hb : ∃ owed, t.rebuild = some ⟨some v, owed⟩) :
    t.visited = pre ++ [v] := by
  obtain ⟨owed, hb⟩ := hb
  simp only [State.visited, hm, hb]
  rw [he, takeWhile_ne_append (hft.not_mem_before he)]

/-- A visit of the rebuild covers its asset, and takes at most that asset's own record, which no asset visited is below. -/
theorem State.AbsorptionLaw.rebuilt (h : s.AbsorptionLaw) {v : Nat} (hv : s.rebuildNext b.last = some v) {u : State}
    {z : Option Nat} (hu : s.Names u v z) (hc : u.Covered v) :
    (u.setRebuild (some { b with last := some v })).AbsorptionLaw := by
  obtain ⟨hanc, hcov, hhold⟩ := h
  obtain ⟨post, he⟩ := hf.forest_of_rebuildNext hm hb hv
  have hwalk := Prod.mk.inj hu.correlation
  have walk : u.walk = s.walk := (Prod.mk.inj hwalk.2).1
  have mode : u.mode = s.mode := (Prod.mk.inj (Prod.mk.inj hwalk.2).2).1
  have list : u.walkList = s.walkList := hwalk.1
  have forest : (u.setRebuild (some { b with last := some v })).Forest :=
    State.Forest.of_tree (t := u.setRebuild (some { b with last := some v })) (s := s) hu.tree hf
  have vis : (u.setRebuild (some { b with last := some v })).visited = s.visited ++ [v] := by
    refine forest.visited_rebuilt (post := post) ?_ (mode.trans hm) ⟨b.owed, rfl⟩
    rw [← he]
    exact State.forest_of_tree (t := u.setRebuild (some { b with last := some v })) (s := s) hu.tree
  have unvisited : v ∉ s.visited := hf.not_mem_before he
  have behind {d : Nat} (hd : d ∈ s.visited) : v ∉ s.ancestorsOf d := by
    have order := hf.forest_pairwise
    rw [he, List.pairwise_append] at order
    exact order.2.2 d hd v List.mem_cons_self
  have anc (e : Nat) : (u.setRebuild (some { b with last := some v })).ancestorsOf e = s.ancestorsOf e :=
    State.ancestorsOf_of_tree (t := u.setRebuild (some { b with last := some v })) (s := s) hu.tree e
  have ancU (e : Nat) : u.ancestorsOf e = s.ancestorsOf e := State.ancestorsOf_of_tree hu.tree e
  have absorb {c d : Nat} (hcv : c ≠ v) (hp : s.absorbPending c d) :
      (u.setRebuild (some { b with last := some v })).absorbPending c d :=
    State.absorbPending_of_same (t := u.setRebuild (some { b with last := some v })) hu.tree walk (fun he => list ▸ he)
      (hu.holds c hcv) hp
  refine ⟨fun d hd y hy => ?_, fun d hd c hcd hh => ?_, fun d hd y hy => ?_⟩ <;>
    (rw [vis] at hd; rcases List.mem_append.1 hd with hd | hd)
  · have hdv : d ≠ v := fun he => unvisited (he ▸ hd)
    rw [anc]
    exact hanc d hd y (hu.absorber d hdv ▸ hy)
  · obtain rfl := List.mem_singleton.1 hd
    rw [anc, ← ancU]
    exact hc.above y hy
  · have hdv : d ≠ v := fun he => unvisited (he ▸ hd)
    rw [anc] at hcd
    have hcv : c ≠ v := fun he => behind hd (he ▸ hcd)
    have hs : s.faultIdOf c ≠ none := hu.holds c hcv ▸ hh
    exact (hcov d hd c hcd hs).imp (absorb hcv) fun ⟨y, hy, hyc⟩ =>
      ⟨y, (hu.absorber d hdv).symm ▸ hy, by rw [anc]; exact hyc⟩
  · obtain rfl := List.mem_singleton.1 hd
    rcases hc.covers c (by rw [ancU, ← anc]; exact hcd) hh with hp | ⟨y, hy, hyc⟩
    · exact .inl (.inl hp)
    · exact .inr ⟨y, hy, by rw [anc, ← ancU]; exact hyc⟩
  · have hdv : d ≠ v := fun he => unvisited (he ▸ hd)
    have hys : y ∈ s.absorbedByOf d := hu.absorber d hdv ▸ hy
    have other {c : Nat} (hcd : c ∈ s.ancestorsOf d) : c ≠ v := fun he => behind hd (he ▸ hcd)
    rcases hhold d hd y hys with hp | hp | ⟨c, hcd, hh, hp⟩
    · exact .inl fun hn => hp ((hu.holds y (other (hanc d hd y hys))).symm.trans hn)
    · exact .inr (.inl (State.releasePending_of_same (t := u.setRebuild (some { b with last := some v })) hu.tree walk
        (fun _ _ _ he => list ▸ he) (fun c hcd hn => (hu.holds c (other hcd)).trans hn) hp))
    · exact .inr (.inr ⟨c, by rw [anc]; exact hcd, fun hn => hh ((hu.holds c (other hcd)).symm.trans hn),
        absorb (other hcd) hp⟩)
  · obtain rfl := List.mem_singleton.1 hd
    exact .inl (hc.holds y hy)

end

theorem State.Served.setRebuild {s t : State} (h : s.Served t) (b : Option Rebuild) :
    (s.setRebuild b).Served (t.setRebuild b) := by
  rcases h with h | ⟨a, h⟩
  · have hc := h.correlation
    simp only [State.correlation, Prod.mk.injEq] at hc
    obtain ⟨hl, hw, hm, -⟩ := hc
    exact .inl ⟨h.tree, h.absorber, h.holds, by simp only [State.correlation, State.setRebuild, hl, hm, hw]⟩
  · have hw := h.walking
    simp only [State.walking, Prod.mk.injEq] at hw
    obtain ⟨hw, hm, -⟩ := hw
    exact .inr ⟨a, h.tree, h.absorber, h.holds, h.fresh, h.held, h.walkList,
      by simp only [State.walking, State.setRebuild, hm, hw]⟩

theorem State.AbsorptionLaw.rebuildVisit {s : State} (h : s.AbsorptionLaw) (hf : s.Forest) (hbal : s.Balanced) {b : Rebuild}
    (hm : s.mode = .entering) (hb : s.rebuild = some b) {v : Nat} (hv : s.rebuildNext b.last = some v) :
    ((s.rebuildAt v).setRebuild (some { b with last := some v })).AbsorptionLaw := by
  obtain ⟨post, he⟩ := hf.forest_of_rebuildNext hm hb hv
  have present : s.asset? v ≠ none := by
    rw [← hf.mem_forest, he]
    exact List.mem_append_right _ List.mem_cons_self
  obtain ⟨x, hx⟩ := Option.ne_none_iff_exists'.1 present
  obtain ⟨u, hu, hlost, hserved⟩ := hbal.rebuildAt_names hx
  have anc (e : Nat) : u.ancestorsOf e = s.ancestorsOf e := State.ancestorsOf_of_tree hu.tree e
  have others {c : Nat} (hc : c ∈ s.ancestorsOf v) : u.faultIdOf c = s.faultIdOf c :=
    hu.holds c fun he => hf.irrefl v (he ▸ hc)
  have covered : u.Covered v := by
    refine ⟨fun z hz => ?_, fun c hc hh => ?_, fun z hz => ?_⟩
    · rw [hu.named] at hz
      rw [anc]
      exact State.highestHolder_mem hz
    · rw [anc] at hc
      rw [others hc] at hh
      cases hz : s.highestHolder v with
      | none => exact absurd (State.highestHolder_eq_none.1 hz c hc) hh
      | some z => exact .inr ⟨z, hu.named.trans hz, by rw [anc]; exact hf.highestHolder_above hz hc hh⟩
    · rw [hu.named] at hz
      rw [others (State.highestHolder_mem hz)]
      exact State.highestHolder_holds hz
  exact (h.rebuilt hf hm hb hv hu covered).served (State.Forest.of_tree (t := u.setRebuild _) (s := s) hu.tree hf) (hserved.setRebuild _)

end Sys2Proof.Machine
end

section
/-! PROOFS. The absorption law under ASSET LOAD and ERASE, and so under every step (O41). -/

namespace Sys2Proof.Machine

/-! ## A leaf more, or a leaf less -/

theorem State.asset?_putAsset (s : State) (a : Nat) (x : Asset) (b : Nat) :
    (s.putAsset a x).asset? b = if b = a then some x else s.asset? b := by
  rw [State.asset?, State.putAsset, State.setAssets_assets]
  split
  · next hb => rw [hb, Table.get?_put_self]
  · next hb => rw [Table.get?_put_of_ne _ _ hb, State.asset?]

theorem State.asset?_eraseAsset (s : State) (a b : Nat) :
    (s.setAssets (s.assets.del a)).asset? b = if b = a then none else s.asset? b := by
  rw [State.asset?, State.setAssets_assets]
  split
  · next hb => rw [hb, Table.get?_del_self]
  · next hb => rw [Table.get?_del_of_ne _ hb, State.asset?]

/-- Where parents agree on an asset and all above it, so do its ancestors. -/
theorem State.ancestorsOf_of_parents {s t : State} (hs : s.Forest) (ht : t.Forest) {P : Nat → Prop}
    (hp : ∀ d, P d → t.parentOf d = s.parentOf d) (hup : ∀ d p, P d → s.parentOf d = some p → P p) {d : Nat} (hd : P d) :
    t.ancestorsOf d = s.ancestorsOf d := by
  have same (n d : Nat) (hn : s.up n d = none) (hd : P d) : t.ancestorsOf d = s.ancestorsOf d := by
    induction n generalizing d with
    | zero => cases hn
    | succ n ih =>
      rw [hs.ancestorsOf_eq, ht.ancestorsOf_eq, hp d hd]
      cases hpar : s.parentOf d with
      | none => rfl
      | some p =>
        rw [State.up, hpar] at hn
        dsimp only
        rw [ih p hn (hup d p hd hpar)]
  exact same 6 d (hs.shallow d) hd

/-- What a cursor leaves grows with the tree, and shrinks by no more than the assets that go. -/
theorem State.remaining_mono {s t : State} (hs : s.Forest) (ht : t.Forest) {P : Nat → Prop}
    (hanc : ∀ d a, P d → a ∈ s.ancestorsOf d → a ∈ t.ancestorsOf d)
    (hpar : ∀ d a c, P d → c = d ∨ c ∈ s.ancestorsOf d → s.parentOf c = some a → t.parentOf c = some a)
    {a : Nat} {cursor : List Nat} {d : Nat} (hP : P d) (hd : d ∈ s.remaining a cursor) : d ∈ t.remaining a cursor := by
  induction cursor generalizing a with
  | nil => exact ht.mem_descendantsOf.2 (hanc d a hP (hs.mem_descendantsOf.1 hd))
  | cons c rest ih =>
    rw [State.remaining, List.mem_append] at hd ⊢
    rcases hd with hd | hd
    · split at hd
      · next hc =>
        rw [List.contains_iff_mem, State.mem_childrenOf hs.wf] at hc
        have hcd := hs.mem_descendantsOf.1 (hs.remaining_subset hd)
        have hct : (t.childrenOf a).contains c = true :=
          List.contains_iff_mem.2 ((State.mem_childrenOf ht.wf).2 (hpar d a c hP (.inr hcd) hc))
        exact .inl ((if_pos hct).symm ▸ ih hd)
      · cases hd
    · obtain ⟨x, hx, hd⟩ := List.mem_flatMap.1 hd
      obtain ⟨hx, hlt⟩ := List.mem_filter.1 hx
      rw [State.mem_childrenOf hs.wf] at hx
      have hdx : x = d ∨ x ∈ s.ancestorsOf d := (List.mem_cons.1 hd).imp Eq.symm hs.mem_descendantsOf.1
      refine .inr (List.mem_flatMap.2 ⟨x, List.mem_filter.2 ⟨(State.mem_childrenOf ht.wf).2 (hpar d a x hP hdx hx), hlt⟩, ?_⟩)
      rcases hdx with rfl | hdx
      · exact List.mem_cons_self
      · exact List.mem_cons_of_mem _ (ht.mem_descendantsOf.2 (hanc d x hP hdx))

/-- The law of one asset. -/
def State.AbsorptionLawAt (s : State) (d : Nat) : Prop :=
  (∀ z ∈ s.absorbedByOf d, z ∈ s.ancestorsOf d)
    ∧ (∀ b ∈ s.ancestorsOf d, s.faultIdOf b ≠ none → s.absorbPending b d ∨ ∃ z ∈ s.absorbedByOf d, z = b ∨ z ∈ s.ancestorsOf b)
    ∧ ∀ z ∈ s.absorbedByOf d,
      s.faultIdOf z ≠ none ∨ s.releasePending d ∨ ∃ b ∈ s.ancestorsOf d, s.faultIdOf b ≠ none ∧ s.absorbPending b d

section
variable {s t : State} (hs : s.Forest) (ht : t.Forest) {P : Nat → Prop}
  (hanc : ∀ d, P d → t.ancestorsOf d = s.ancestorsOf d)
  (hpar : ∀ d a c, P d → c = d ∨ c ∈ s.ancestorsOf d → s.parentOf c = some a → t.parentOf c = some a)
  (hholds : ∀ b, t.faultIdOf b = s.faultIdOf b) (hc : t.correlation = s.correlation)
include hs ht hanc hpar hholds hc

/-- Walks that may still visit an asset go on doing so. -/
theorem State.absorbPending_of_parents {b d : Nat} (hd : P d) (h : s.absorbPending b d) : t.absorbPending b d := by
  rcases h with h | ⟨w, hw, hroot, hkind, hrec, hr⟩
  · exact .inl ((State.walkList_of_correlation hc).symm ▸ h)
  · refine .inr ⟨w, (Prod.mk.inj (State.walking_of_correlation hc)).1.symm ▸ hw, hroot, hkind, hrec.trans (hholds b).symm, ?_⟩
    exact State.remaining_mono hs ht (fun d a hd ha => (hanc d hd).symm ▸ ha) hpar hd hr

theorem State.releasePending_of_parents {d : Nat} (hd : P d) (h : s.releasePending d) : t.releasePending d := by
  obtain ⟨a, ha, hn, hp⟩ := h
  refine ⟨a, (hanc d hd).symm ▸ ha, (hholds a).trans hn, ?_⟩
  rcases hp with hp | ⟨w, hw, hroot, hkind, hr⟩
  · exact .inl ((State.walkList_of_correlation hc).symm ▸ hp)
  · refine .inr ⟨w, (Prod.mk.inj (State.walking_of_correlation hc)).1.symm ▸ hw, hroot, hkind, ?_⟩
    exact State.remaining_mono hs ht (fun d a hd ha => (hanc d hd).symm ▸ ha) hpar hd hr

/-- The law of an asset whose surroundings stay. -/
theorem State.AbsorptionLaw.of_parents (h : s.AbsorptionLaw) (hab : ∀ d, P d → t.absorbedByOf d = s.absorbedByOf d)
    (hup : ∀ d b, P d → b ∈ s.ancestorsOf d → P b) {d : Nat} (hd : P d) (hv : d ∈ s.visited) : t.AbsorptionLawAt d := by
  obtain ⟨habove, hcov, hhold⟩ := h
  have absorb {b : Nat} (hp : s.absorbPending b d) : t.absorbPending b d :=
    State.absorbPending_of_parents hs ht hanc hpar hholds hc hd hp
  rw [State.AbsorptionLawAt, hab d hd, hanc d hd]
  refine ⟨habove d hv, fun b hb hh => ?_, fun z hz => ?_⟩
  · rw [hholds] at hh
    exact (hcov d hv b hb hh).imp absorb fun ⟨z, hz, hzb⟩ => ⟨z, hz, by rw [hanc b (hup d b hd hb)]; exact hzb⟩
  · refine (hhold d hv z hz).imp (fun hp => by rw [hholds]; exact hp) fun hp => hp.imp
      (State.releasePending_of_parents hs ht hanc hpar hholds hc hd) fun ⟨b, hb, hh, hp⟩ =>
        ⟨b, hb, by rw [hholds]; exact hh, absorb hp⟩

end

/-- An asset whose absorber was taken from its parent has the parent's law (R11). -/
theorem State.AbsorptionLaw.inherits {s t : State} {a : Nat} {config : AssetConfig} (hbal : s.Balanced) (ht : t.Forest)
    (hself : t.absorbedByOf a = s.inheritedAbsorber config.parent) (hparent : t.parentOf a = config.parent)
    (hholds : ∀ b, t.faultIdOf b = s.faultIdOf b) (hp : s.parentPresent config.parent = true)
    (hab : ∀ p, (s.asset? p).isSome = true → t.absorbedByOf p = s.absorbedByOf p)
    (hlaw : ∀ p, (s.asset? p).isSome = true → t.AbsorptionLawAt p) : t.AbsorptionLawAt a := by
  cases hpar : config.parent with
  | none =>
    have none : t.absorbedByOf a = none := by rw [hself, hpar]; rfl
    have noAncestor : t.ancestorsOf a = [] := by rw [ht.ancestorsOf_eq, hparent, hpar]
    refine ⟨fun z hz => ?_, fun b hb => ?_, fun z hz => ?_⟩
    · rw [none] at hz
      cases hz
    · rw [noAncestor] at hb
      cases hb
    · rw [none] at hz
      cases hz
  | some p =>
    rw [hpar] at hself hparent hp
    obtain ⟨habove, hcov, hhold⟩ := hlaw p hp
    have up {b : Nat} (hb : b ∈ t.ancestorsOf p) : b ∈ t.ancestorsOf a := (ht.mem_ancestorsOf_parent hparent).2 (.inr hb)
    have absorb {b : Nat} : t.absorbPending b p → t.absorbPending b a
      | .inl h => .inl h
      | .inr ⟨w, hw, hr, hk, hrec, hd⟩ => .inr ⟨w, hw, hr, hk, hrec, ht.remaining_closed hd (ht.parent_mem hparent)⟩
    have release : t.releasePending p → t.releasePending a
      | ⟨b, hb, hn, .inl h⟩ => ⟨b, up hb, hn, .inl h⟩
      | ⟨b, hb, hn, .inr ⟨w, hw, hr, hk, hd⟩⟩ =>
        ⟨b, up hb, hn, .inr ⟨w, hw, hr, hk, ht.remaining_closed hd (ht.parent_mem hparent)⟩⟩
    have habp := hab p hp
    rw [State.inheritedAbsorber] at hself
    cases hz : s.absorbedByOf p with
    | some z =>
      have hself : t.absorbedByOf a = t.absorbedByOf p := by rw [hself, hz, habp, hz]
      have unheld : t.faultIdOf p = none := by
        rw [hholds]
        by_contra hne
        rw [hbal.absorber_of_holder hne] at hz
        cases hz
      refine ⟨fun y hy => ?_, fun b hb hh => ?_, fun y hy => ?_⟩
      · rw [hself] at hy
        exact up (habove y hy)
      · rcases (ht.mem_ancestorsOf_parent hparent).1 hb with rfl | hb
        · exact absurd unheld hh
        · rw [hself]
          exact (hcov b hb hh).imp_left absorb
      · rw [hself] at hy
        exact (hhold y hy).imp_right fun hr => hr.imp release fun ⟨b, hb, hh, hq⟩ => ⟨b, up hb, hh, absorb hq⟩
    | none =>
      rw [hz] at hself habp
      have awaits {b : Nat} (hb : b ∈ t.ancestorsOf p) (hh : t.faultIdOf b ≠ none) : t.absorbPending b a := by
        rcases hcov b hb hh with hq | ⟨y, hy, -⟩
        · exact absorb hq
        · rw [habp] at hy
          cases hy
      by_cases hh : s.faultIdOf p = none
      · have none : t.absorbedByOf a = none := by rw [hself]; simp [hh]
        refine ⟨fun y hy => ?_, fun b hb hhb => ?_, fun y hy => ?_⟩
        · rw [none] at hy
          cases hy
        · rcases (ht.mem_ancestorsOf_parent hparent).1 hb with rfl | hb
          · exact absurd ((hholds b).trans hh) hhb
          · exact .inl (awaits hb hhb)
        · rw [none] at hy
          cases hy
      · have named : t.absorbedByOf a = some p := by rw [hself]; simp [Option.isSome_iff_ne_none, hh]
        refine ⟨fun y hy => ?_, fun b hb hhb => ?_, fun y hy => ?_⟩
        · rw [named] at hy
          cases hy
          exact ht.parent_mem hparent
        · rcases (ht.mem_ancestorsOf_parent hparent).1 hb with rfl | hb
          · exact .inr ⟨b, named, .inl rfl⟩
          · exact .inl (awaits hb hhb)
        · rw [named] at hy
          cases hy
          exact .inl (by rw [hholds]; exact hh)

section
variable {s : State} (h : s.AbsorptionLaw) (hf : s.Forest) (hbal : s.Balanced)
include h hf

/-- The ERASE of an asset without children or record (R12). -/
theorem State.AbsorptionLaw.erased {a : Nat} {x : Asset} (hx : s.asset? a = some x) (hm : s.mode ≠ .entering)
    (hchild : s.hasChild a = false) (hid : x.faultId = none) (ht : (s.setAssets (s.assets.del a)).Forest) :
    (s.setAssets (s.assets.del a)).AbsorptionLaw := by
  cases hmode : s.mode with
  | maintain => exact State.absorptionLaw_of_nil (State.visited_of_maintain (s := s.setAssets _) hmode)
  | entering => exact absurd hmode hm
  | run =>
    generalize htt : s.setAssets (s.assets.del a) = t at ht ⊢
    have asset (b : Nat) : t.asset? b = if b = a then none else s.asset? b := htt ▸ s.asset?_eraseAsset a b
    have others {b : Nat} (hb : b ≠ a) : t.asset? b = s.asset? b := by rw [asset, if_neg hb]
    have parent (d : Nat) (hd : d ≠ a) : t.parentOf d = s.parentOf d := by rw [State.parentOf, others hd, State.parentOf]
    have above (d p : Nat) (_ : d ≠ a) (hp : s.parentOf d = some p) : p ≠ a := by
      rintro rfl
      rw [(State.hasChild_iff hf.wf).2 ⟨d, hp⟩] at hchild
      cases hchild
    have hanc (d : Nat) (hd : d ≠ a) : t.ancestorsOf d = s.ancestorsOf d :=
      State.ancestorsOf_of_parents hf ht parent above hd
    have notAbove {d : Nat} : a ∉ s.ancestorsOf d := fun had =>
      State.childrenOf_ne_nil hf had ((s.hasChild_eq_false a).1 hchild)
    have hpar (d b c : Nat) (hd : d ≠ a) (hcd : c = d ∨ c ∈ s.ancestorsOf d) (hcb : s.parentOf c = some b) :
        t.parentOf c = some b := by
      rw [parent c, hcb]
      rcases hcd with rfl | hcd
      · exact hd
      · exact fun he => notAbove (he ▸ hcd)
    have hholds (b : Nat) : t.faultIdOf b = s.faultIdOf b := by
      by_cases hb : b = a
      · rw [hb, (State.reads_of_asset? hx).2, hid, State.faultIdOf, asset, if_pos rfl]
        rfl
      · exact State.faultIdOf_congr (others hb)
    have hab (d : Nat) (hd : d ≠ a) : t.absorbedByOf d = s.absorbedByOf d := State.absorbedByOf_congr (others hd)
    have each {d : Nat} (hd : d ∈ t.visited) := by
      have present := (State.mem_visited_of_run ht (by rw [← htt]; exact hmode)).1 hd
      have hda : d ≠ a := fun he => present (by rw [asset, if_pos he])
      exact h.of_parents hf ht hanc hpar hholds (by rw [← htt]; rfl) hab
        (fun d b _ hb he => notAbove (he ▸ hb)) hda
        ((State.mem_visited_of_run hf hmode).2 (others hda ▸ present))
    exact ⟨fun d hd => (each hd).1, fun d hd => (each hd).2.1, fun d hd => (each hd).2.2⟩

include hbal in
/-- A new asset takes its absorber from its parent (R11). -/
theorem State.AbsorptionLaw.created {a : Nat} {config : AssetConfig} (hx : s.asset? a = none) (hm : s.mode ≠ .entering)
    (hp : s.parentPresent config.parent = true) (ht : (s.putAsset a (s.newAsset config)).Forest) :
    (s.putAsset a (s.newAsset config)).AbsorptionLaw := by
  cases hmode : s.mode with
  | maintain => exact State.absorptionLaw_of_nil (State.visited_of_maintain (s := s.putAsset _ _) hmode)
  | entering => exact absurd hmode hm
  | run =>
    generalize htt : s.putAsset a (s.newAsset config) = t at ht ⊢
    have asset (b : Nat) : t.asset? b = if b = a then some (s.newAsset config) else s.asset? b :=
      htt ▸ s.asset?_putAsset a _ b
    have others {b : Nat} (hb : b ≠ a) : t.asset? b = s.asset? b := by rw [asset, if_neg hb]
    have self : t.asset? a = some (s.newAsset config) := by rw [asset, if_pos rfl]
    have apart {d : Nat} (hd : s.asset? d ≠ none) : d ≠ a := by
      rintro rfl
      exact hd hx
    have parent (d : Nat) (hd : s.asset? d ≠ none) : t.parentOf d = s.parentOf d := by
      rw [State.parentOf, others (apart hd), State.parentOf]
    have above (d p : Nat) (_ : s.asset? d ≠ none) (hp : s.parentOf d = some p) : s.asset? p ≠ none := hf.present hp
    have hanc (d : Nat) (hd : s.asset? d ≠ none) : t.ancestorsOf d = s.ancestorsOf d :=
      State.ancestorsOf_of_parents hf ht parent above hd
    have hpar (d b c : Nat) (hd : s.asset? d ≠ none) (hcd : c = d ∨ c ∈ s.ancestorsOf d) (hcb : s.parentOf c = some b) :
        t.parentOf c = some b := by
      rw [parent c, hcb]
      rcases hcd with rfl | hcd
      · exact hd
      · exact hf.ancestor_present hcd
    have hholds (b : Nat) : t.faultIdOf b = s.faultIdOf b := by
      by_cases hb : b = a
      · rw [hb, (State.reads_of_asset? self).2, State.faultIdOf, hx]
        rfl
      · exact State.faultIdOf_congr (others hb)
    have hc : t.correlation = s.correlation := by rw [← htt]; rfl
    have present {d : Nat} (hd : t.asset? d ≠ none) : d = a ∨ s.asset? d ≠ none := by
      by_cases hda : d = a
      · exact .inl hda
      · exact .inr (by rw [← others hda]; exact hd)
    have hab (d : Nat) (hd : s.asset? d ≠ none) : t.absorbedByOf d = s.absorbedByOf d :=
      State.absorbedByOf_congr (others (apart hd))
    have hself : t.absorbedByOf a = s.inheritedAbsorber config.parent := by
      rw [(State.reads_of_asset? self).1]
      exact if_pos hmode
    have hselfParent : t.parentOf a = config.parent := by rw [State.parentOf, self]; rfl
    have visited {d : Nat} (hd : s.asset? d ≠ none) := (State.mem_visited_of_run hf hmode).2 hd
    have old {d : Nat} (hd : s.asset? d ≠ none) := h.of_parents hf ht hanc hpar hholds hc hab
      (fun _ _ _ hb => hf.ancestor_present hb) hd (visited hd)
    have each {d : Nat} (hd : d ∈ t.visited) : d = a ∨ s.asset? d ≠ none :=
      present ((State.mem_visited_of_run ht (by rw [← htt]; exact hmode)).1 hd)
    have young := State.AbsorptionLaw.inherits (s := s) (t := t) (a := a) (config := config) hbal ht hself hselfParent hholds hp
      (fun p hp => hab p (Option.isSome_iff_ne_none.1 hp)) fun p hp => old (Option.isSome_iff_ne_none.1 hp)
    refine ⟨fun d hd => ?_, fun d hd => ?_, fun d hd => ?_⟩
    · exact (each hd).elim (fun he => he ▸ young.1) fun he => (old he).1
    · exact (each hd).elim (fun he => he ▸ young.2.1) fun he => (old he).2.1
    · exact (each hd).elim (fun he => he ▸ young.2.2) fun he => (old he).2.2

end

end Sys2Proof.Machine
end

section
/-! PROOFS. The absorption law under every step, and what it comes to when no walk is left (O41). -/

namespace Sys2Proof.Machine

/-- The law reads a subset of the assets visited, as long as the rest stays. -/
theorem State.AbsorptionLaw.fewer {s t : State} (h : s.AbsorptionLaw) (htree : t.tree = s.tree)
    (hab : ∀ d, t.absorbedByOf d = s.absorbedByOf d) (hholds : ∀ b, t.faultIdOf b = s.faultIdOf b)
    (hl : t.walkList = s.walkList) (hw : t.walk = s.walk) (hv : ∀ d ∈ t.visited, d ∈ s.visited) : t.AbsorptionLaw := by
  obtain ⟨hanc, hcov, hhold⟩ := h
  have anc (e : Nat) : t.ancestorsOf e = s.ancestorsOf e := State.ancestorsOf_of_tree htree e
  have absorb {b d : Nat} (hp : s.absorbPending b d) : t.absorbPending b d :=
    State.absorbPending_of_same htree hw (fun he => hl ▸ he) (hholds b) hp
  refine ⟨fun d hd z hz => ?_, fun d hd b hb hh => ?_, fun d hd z hz => ?_⟩
  · rw [anc]
    exact hanc d (hv d hd) z (hab d ▸ hz)
  · rw [anc] at hb
    rw [hholds] at hh
    exact (hcov d (hv d hd) b hb hh).imp absorb fun ⟨y, hy, hyb⟩ => ⟨y, (hab d).symm ▸ hy, by rw [anc]; exact hyb⟩
  · refine (hhold d (hv d hd) z (hab d ▸ hz)).imp (fun hp => by rw [hholds]; exact hp) fun hp => hp.imp
      (State.releasePending_of_same htree hw (fun _ _ _ he => hl ▸ he) fun b _ hn => (hholds b).trans hn)
      fun ⟨b, hb, hh, hp⟩ => ⟨b, by rw [anc]; exact hb, by rw [hholds]; exact hh, absorb hp⟩

theorem State.Alike.absorber {s t : State} (h : s.Alike t) (d : Nat) : t.absorbedByOf d = s.absorbedByOf d := by
  have hs := h.standing d
  rw [State.absorbedByOf, State.absorbedByOf]
  cases hx : s.asset? d <;> cases hy : t.asset? d <;> simp_all [Asset.standing]

theorem State.Alike.holds {s t : State} (h : s.Alike t) (b : Nat) : t.faultIdOf b = s.faultIdOf b :=
  State.faultIdOf_of_place (place_of_standing (h.standing b))

theorem State.Alike.parallel {s t : State} (h : s.Alike t) (htree : t.tree = s.tree) (hc : t.correlation = s.correlation) :
    s.Parallel t := ⟨htree, h.absorber, h.holds, hc⟩

theorem Event.absorptionLaw {s t : State} (he : Event s t) (hc : s.Canonical) (hf : s.Forest) (hft : t.Forest)
    (hl : s.FaultLaw) (h : s.AbsorptionLaw) : t.AbsorptionLaw := by
  have balanced := hl.balanced hc
  cases he with
  | quiet ha hn htree hcor => exact h.parallel (ha.parallel htree hcor)
  | maintained ha hn hm => exact State.absorptionLaw_of_nil (State.visited_of_maintain hm)
  | entering ha hn htree hm hb =>
    obtain ⟨owed, hb⟩ := hb
    exact State.absorptionLaw_of_nil (by simp [State.visited, hm, hb])
  | entered ha hn htree hm hb hv hcor =>
    simp only [State.correlation, Prod.mk.injEq] at hcor
    obtain ⟨hlist, hwalk, hmode, -⟩ := hcor
    refine h.fewer htree ha.absorber ha.holds hlist hwalk fun d hd => ?_
    refine hf.visited_of_rebuildNext_none hm hb hv ((State.present_of_tree htree d).1 ?_)
    exact (State.mem_visited_of_run hft hmode).1 hd
  | created ha hx hm hp hcf => exact h.created hf balanced hx hm hp hft
  | erased hx hm he =>
    obtain ⟨hchild, hid, -⟩ := State.eraseConflict_eq_false he
    exact h.erased hf hx hm hchild hid hft
  | sample a hm => exact h.sampled hf (balanced.sample_sampled a)
  | close hm hr => exact h.sampled hf (balanced.close_sampled hr)
  | beginWalk => exact h.beginWalk hf
  | absorbVisit =>
    obtain he | ⟨he, hs⟩ | ⟨w, id, cursor, hm, hw, hk, hid, hr, hn, he⟩ := s.absorbVisit_cases
    · exact he.symm ▸ h
    · rw [he]
      exact h.abandon hf hs
    · rw [he]
      exact h.absorbVisit_step hf balanced hm hw hk hid hr hn
  | releaseVisit =>
    obtain he | ⟨he, hs⟩ | ⟨w, cursor, hm, hw, hk, -, hn, he⟩ := s.releaseVisit_cases
    · exact he.symm ▸ h
    · rw [he]
      exact h.abandon hf hs
    · rw [he]
      exact h.releaseVisit_step hf balanced hm hw hk hn
  | rebuildVisit hm hb hv => exact h.rebuildVisit hf balanced hm hb hv
  | cleared hx hr hw hn hm =>
    have empty (d : Nat) : t.absorbedByOf d = none ∧ t.faultIdOf d = none := by
      cases hd : t.asset? d with
      | none => rw [State.absorbedByOf, State.faultIdOf, hd]; exact ⟨rfl, rfl⟩
      | some y =>
        have hs := hx d y hd
        simp only [Asset.standing, Prod.mk.injEq] at hs
        rw [(State.reads_of_asset? hd).1, (State.reads_of_asset? hd).2]
        exact ⟨hs.2.1, hs.2.2.1⟩
    refine ⟨fun d _ z hz => ?_, fun d _ b _ hh => absurd (empty b).2 hh, fun d _ z hz => ?_⟩ <;>
      (rw [(empty d).1] at hz; cases hz)

theorem law_absorption : Law fun s => s.Canonical ∧ s.Forest ∧ s.FaultLaw ∧ s.AbsorptionLaw :=
  ⟨fun ht ⟨hc, hf, hl, h⟩ => ⟨ht.canonical hc, ht.forest hc hf, (ht.event hc).faultLaw hc (ht.canonical hc) hl,
    (ht.event hc).absorptionLaw hc hf (ht.forest hc hf) hl h⟩, fun _ ⟨hc, hf, hl, h⟩ => ⟨hc, hf.setPending _, hl, h.parallel (.of_assets rfl rfl)⟩⟩

/-- With no walk left the absorber of every asset is its highest holder, and no holder is above another (R125). -/
theorem State.AbsorptionLaw.exact {s : State} (h : s.AbsorptionLaw) (hf : s.Forest) (hbal : s.Balanced) (hm : s.mode = .run)
    (hl : s.walkList = []) (hw : s.walk = none) {d : Nat} {x : Asset} (hx : s.asset? d = some x) :
    (∀ z, x.absorbedBy = some z → ∃ lower higher, s.ancestorsOf d = lower ++ z :: higher
      ∧ s.faultIdOf z ≠ none ∧ ∀ b ∈ higher, s.faultIdOf b = none)
    ∧ (x.absorbedBy = none → ∀ b ∈ s.ancestorsOf d, s.faultIdOf b = none)
    ∧ (x.faultId ≠ none → ∀ b ∈ s.ancestorsOf d, s.faultIdOf b = none) := by
  obtain ⟨hanc, hcov, hhold⟩ := h
  have hv : d ∈ s.visited := (State.mem_visited_of_run hf hm).2 (by rw [hx]; exact nofun)
  have idle {b e : Nat} : ¬s.absorbPending b e := by
    rintro (hp | ⟨w, hw', -⟩)
    · rw [hl] at hp
      cases hp
    · rw [hw] at hw'
      cases hw'
  have covered {b : Nat} (hb : b ∈ s.ancestorsOf d) (hh : s.faultIdOf b ≠ none) :
      ∃ z ∈ s.absorbedByOf d, z = b ∨ z ∈ s.ancestorsOf b := (hcov d hv b hb hh).resolve_left idle
  have hab := (State.reads_of_asset? hx).1
  have unabsorbed (hnone : x.absorbedBy = none) (b : Nat) (hb : b ∈ s.ancestorsOf d) : s.faultIdOf b = none := by
    by_contra hh
    obtain ⟨z, hz, -⟩ := covered hb hh
    rw [hab, hnone] at hz
    cases hz
  refine ⟨fun z hz => ?_, unabsorbed, fun hid => ?_⟩
  · have hzd : z ∈ s.absorbedByOf d := hab.trans hz
    obtain ⟨lower, hsplit⟩ := hf.ancestorsOf_split (hanc d hv z hzd)
    refine ⟨lower, s.ancestorsOf z, hsplit, ?_, fun b hb => ?_⟩
    · rcases hhold d hv z hzd with hp | ⟨a, -, -, hp | ⟨w, hw', -⟩⟩ | ⟨b, -, -, hp⟩
      · exact hp
      · rw [hl] at hp
        cases hp
      · rw [hw] at hw'
        cases hw'
      · exact absurd hp idle
    · by_contra hh
      obtain ⟨y, hy, hyb⟩ := covered (hf.trans hb (hanc d hv z hzd)) hh
      obtain rfl : z = y := Option.some.inj (hzd.symm.trans hy)
      rcases hyb with rfl | hyb
      · exact hf.irrefl _ hb
      · exact hf.irrefl _ (hf.trans hyb hb)
  · refine unabsorbed ?_
    rw [← hab]
    exact hbal.absorber_of_holder (by rw [(State.reads_of_asset? hx).2]; exact hid)

/-- Settles O41: every event keeps the law, and what may lag is exactly what a walk is still to visit. -/
theorem absorptionLawKept : Obligations.AbsorptionLawKept := by
  refine ⟨fun s t hc _ htree hl h ht => ?_, fun s hc htree hl h hm hlist hwalk e he => ?_⟩
  · exact (law_absorption.step ⟨hc, htree.forest hc.1, hl, h⟩ ht).2.2.2
  · exact h.exact (htree.forest hc.1) (hl.balanced hc) hm hlist hwalk (Table.get?_of_mem hc.1 he)

end Sys2Proof.Machine
end

section
/-! PROOFS. The count law (O22): how many assets a record counts, what a change of one asset does to that, and what the
operations of the fault table do to n (R106, R126, R135). -/

namespace Sys2Proof.Machine

/-! ## How many assets name one -/

/-- The number of FAULTY assets, of those the correlation unit answers for, whose absorbed-by names the asset. -/
def State.count (s : State) (b : Nat) : Nat := (s.visited.filter fun d => s.countedBy b d).length

theorem State.countedBy_iff {s : State} {b d : Nat} :
    s.countedBy b d = true ↔ ∃ x, s.asset? d = some x ∧ x.health ≠ .healthy ∧ x.absorbedBy = some b := by
  unfold State.countedBy
  cases s.asset? d with
  | none => simp
  | some x => simp [Asset.faulty]

theorem State.countedBy_absorber {s : State} {b d : Nat} (h : s.countedBy b d = true) : s.absorbedByOf d = some b := by
  obtain ⟨x, hx, -, hab⟩ := State.countedBy_iff.1 h
  rw [(State.reads_of_asset? hx).1, hab]

/-- Counts differ by one asset, if the others are counted alike. -/
theorem State.count_move {s t : State} (hs : s.visited.Nodup) (ht : t.visited.Nodup) (b d : Nat)
    (h : ∀ e, e ≠ d → (e ∈ t.visited ∧ t.countedBy b e = true ↔ e ∈ s.visited ∧ s.countedBy b e = true)) :
    t.count b + (if d ∈ s.visited ∧ s.countedBy b d = true then 1 else 0)
      = s.count b + (if d ∈ t.visited ∧ t.countedBy b d = true then 1 else 0) := by
  have without (u : State) (hu : u.visited.Nodup) : u.count b
      = ((u.visited.filter fun d => u.countedBy b d).erase d).length
        + (if d ∈ u.visited ∧ u.countedBy b d = true then 1 else 0) := by
    rw [State.count, List.length_erase]
    split
    · next hd =>
      rw [if_pos (List.mem_filter.1 hd)]
      have := List.length_pos_of_mem hd
      omega
    · next hd =>
      rw [if_neg fun hn => hd (List.mem_filter.2 hn)]
      rfl
  have same : ((t.visited.filter fun d => t.countedBy b d).erase d).Perm ((s.visited.filter fun d => s.countedBy b d).erase d) := by
    rw [List.perm_ext_iff_of_nodup ((ht.filter _).erase d) ((hs.filter _).erase d)]
    intro e
    rw [(ht.filter _).mem_erase_iff, (hs.filter _).mem_erase_iff, List.mem_filter, List.mem_filter]
    exact and_congr_right fun hne => h e hne
  rw [without t ht, without s hs, same.length_eq]
  omega

/-- Counts agree where each asset is counted alike. -/
theorem State.count_congr {s t : State} (hs : s.visited.Nodup) (ht : t.visited.Nodup) (b : Nat)
    (h : ∀ e, e ∈ t.visited ∧ t.countedBy b e = true ↔ e ∈ s.visited ∧ s.countedBy b e = true) : t.count b = s.count b := by
  have := State.count_move hs ht b 0 fun e _ => h e
  simp only [h 0] at this
  omega

/-! ## States that count alike -/

/-- What an asset counts by. -/
def Asset.counting (x : Asset) : Health × Option Nat := (x.health, x.absorbedBy)

/-- The same assets count in the same places. -/
structure State.Steady (s t : State) : Prop where
  tree : t.tree = s.tree
  counting : ∀ d, (t.asset? d).map Asset.counting = (s.asset? d).map Asset.counting
  mode : t.mode = s.mode
  rebuild : t.rebuild = s.rebuild

theorem State.Steady.refl (s : State) : s.Steady s := ⟨rfl, fun _ => rfl, rfl, rfl⟩

theorem State.Steady.trans {s t u : State} (h : s.Steady t) (k : t.Steady u) : s.Steady u :=
  ⟨k.tree.trans h.tree, fun d => (k.counting d).trans (h.counting d), k.mode.trans h.mode, k.rebuild.trans h.rebuild⟩

theorem State.Steady.symm {s t : State} (h : s.Steady t) : t.Steady s :=
  ⟨h.tree.symm, fun d => (h.counting d).symm, h.mode.symm, h.rebuild.symm⟩

theorem countedBy_of_counting {s t : State} {d : Nat} (h : (t.asset? d).map Asset.counting = (s.asset? d).map Asset.counting)
    (b : Nat) : t.countedBy b d = s.countedBy b d := by
  unfold State.countedBy
  cases hx : s.asset? d <;> cases hy : t.asset? d <;> simp_all [Asset.counting, Asset.faulty]

theorem absorbedByOf_of_counting {s t : State} {d : Nat} (h : (t.asset? d).map Asset.counting = (s.asset? d).map Asset.counting) :
    t.absorbedByOf d = s.absorbedByOf d := by
  unfold State.absorbedByOf
  cases hx : s.asset? d <;> cases hy : t.asset? d <;> simp_all [Asset.counting]

section
variable {s t : State} (h : s.Steady t)
include h

theorem State.Steady.visited : t.visited = s.visited := by
  simp only [State.visited, h.mode, h.rebuild, State.forest_of_tree h.tree, ← State.tree_keys, h.tree]

theorem State.Steady.count (b : Nat) : t.count b = s.count b := by
  rw [State.count, h.visited, State.count]
  congr 1
  exact List.filter_congr fun d _ => countedBy_of_counting (h.counting d) b

theorem State.Steady.ancestorLaw (hs : s.AncestorLaw) : t.AncestorLaw := by
  intro d hd z hz
  rw [State.ancestorsOf_of_tree h.tree]
  exact hs d (h.visited ▸ hd) z (absorbedByOf_of_counting (h.counting d) ▸ hz)

theorem State.Steady.countedAtCreation (a : Nat) : t.countedAtCreation a = s.countedAtCreation a := by
  unfold State.countedAtCreation
  rw [h.mode, State.childrenOf_of_tree h.tree, State.descendantsOf_of_tree h.tree]
  split
  · rfl
  · congr 1
    refine List.filter_congr fun d _ => ?_
    have hd := h.counting d
    cases hx : s.asset? d <;> cases hy : t.asset? d <;> simp_all [Asset.counting]

end

theorem State.Steady.adjustAsset (s : State) (a : Nat) {f : Asset → Asset}
    (hf : ∀ x, (f x).config = x.config ∧ (f x).counting = x.counting) : s.Steady (s.adjustAsset a f) := by
  refine ⟨s.tree_adjustAsset a fun x => (hf x).1, fun d => ?_, rfl, rfl⟩
  rw [State.asset?_adjustAsset]
  split
  · cases s.asset? d with
    | none => rfl
    | some x => exact congrArg some (hf x).2
  · rfl

theorem State.Steady.of_assets {s t : State} (ha : t.assets = s.assets) (hm : t.mode = s.mode) (hb : t.rebuild = s.rebuild) :
    s.Steady t := ⟨State.tree_of_assets ha, fun d => by rw [State.asset?, ha, State.asset?], hm, hb⟩

theorem State.Steady.onRecordOf (s : State) (a : Nat) (f : FaultRecord → FaultRecord) : s.Steady (s.onRecordOf a f) := by
  refine .of_assets (s.onRecordOf_assets a f) ?_ ?_ <;> (unfold State.onRecordOf; split <;> rfl)

theorem State.Steady.leaveWaiting (s : State) (a : Nat) : s.Steady (s.leaveWaiting a) :=
  .trans (t := s.setWaiting (s.waiting.filter fun b => b ≠ a)) (.of_assets rfl rfl rfl) (.adjustAsset _ a fun _ => ⟨rfl, rfl⟩)

theorem State.Steady.joinWaiting (s : State) (a : Nat) : s.Steady (s.joinWaiting a) :=
  .trans (t := s.setWaiting (s.waiting ++ [a])) (.of_assets rfl rfl rfl) (.adjustAsset _ a fun _ => ⟨rfl, rfl⟩)

theorem State.Steady.discardRecord (s : State) (id a : Nat) : s.Steady (s.discardRecord id a) :=
  .trans (t := s.setRecords (s.records.del id)) (.of_assets rfl rfl rfl) (.adjustAsset _ a fun _ => ⟨rfl, rfl⟩)

theorem State.Steady.createRecord {s : State} (hw : s.records.wf = true) {a : Nat} {x : Asset} {severity : Severity}
    (hx : s.asset? a = some x) (hf : x.health = .faulty severity) : s.Steady (s.createRecord a) := by
  rw [State.createRecord_eq hw hx hf]
  exact .trans (t := s.adjustAsset a fun x => { x with faultId := some s.freeId }) (.adjustAsset s a fun _ => ⟨rfl, rfl⟩)
    (.of_assets rfl rfl rfl)

/-! ## What n becomes -/

/-- Every record's n is what the function says of its asset. -/
def State.Tallied (s : State) (f : Nat → Nat) : Prop := ∀ id r, s.records.get? id = some r → r.absorbed = f r.asset

theorem State.Tallied.congr {s : State} {f g : Nat → Nat} (h : s.Tallied f)
    (hfg : ∀ id r, s.records.get? id = some r → f r.asset = g r.asset) : s.Tallied g := fun id r hr =>
  (h id r hr).trans (hfg id r hr)

theorem State.Tallied.of_records {s t : State} {f : Nat → Nat} (h : s.Tallied f) (ht : t.records = s.records) : t.Tallied f :=
  fun id r hr => h id r (ht ▸ hr)

theorem State.Tallied.of_counts {s t : State} {f : Nat → Nat} (h : s.Tallied f)
    (hl : ∀ id, (t.records.get? id).map FaultRecord.link = (s.records.get? id).map FaultRecord.link)
    (hc : s.SameCounts t) : t.Tallied f := by
  intro id r hr
  have hl := hl id
  have hc := hc id
  rw [hr, Option.map_some, eq_comm, Option.map_eq_some_iff] at hl hc
  obtain ⟨r₁, h₁, he⟩ := hl
  obtain ⟨r₂, h₂, hn⟩ := hc
  obtain rfl : r₁ = r₂ := Option.some.inj (h₁.symm.trans h₂)
  rw [← hn, h id r₁ h₁, (Prod.mk.inj he).1]

section
variable {s : State} {free : Nat → Prop} (hl : s.Ledger free) {f : Nat → Nat} (h : s.Tallied f)
include hl h

/-- A change of n in the record of one asset. -/
theorem State.Tallied.onRecordOf (a : Nat) {g : FaultRecord → FaultRecord} {n : Nat → Nat}
    (hg : ∀ r : FaultRecord, (g r).asset = r.asset ∧ (g r).absorbed = n r.absorbed) :
    (s.onRecordOf a g).Tallied fun b => if b = a then n (f b) else f b := by
  intro id r hr
  unfold State.onRecordOf at hr
  split at hr
  · next own hown =>
    rw [State.adjustRecord, State.setRecords_records, Table.get?_adjust] at hr
    split at hr
    · next he =>
      subst he
      rw [Option.map_eq_some_iff] at hr
      obtain ⟨r', hr', rfl⟩ := hr
      obtain ⟨r'', hr'', hra⟩ := hl.record hown
      obtain rfl : r' = r'' := Option.some.inj (hr'.symm.trans hr'')
      rw [(hg r').1, (hg r').2, h id r' hr']
      exact (if_pos hra).symm
    · next he =>
      have hne : r.asset ≠ a := fun ha => he (Option.some.inj ((hl.holder hr).symm.trans (ha ▸ hown)))
      exact (h id r hr).trans (if_neg hne).symm
  · next hnone =>
    have hne : r.asset ≠ a := fun ha => by
      have := hl.holder hr
      rw [ha, hnone] at this
      cases this
    exact (h id r hr).trans (if_neg hne).symm

theorem State.Tallied.raiseOn (a : Nat) : (s.raiseOn a).Tallied fun b => if b = a then f b + 1 else f b :=
  h.onRecordOf hl a (n := (· + 1)) fun _ => ⟨s.refreshed_asset _, s.refreshed_absorbed _⟩

theorem State.Tallied.lowerOn (a : Nat) : (s.lowerOn a).Tallied fun b => if b = a then f b - 1 else f b :=
  h.onRecordOf hl a (n := (· - 1)) fun _ => ⟨s.refreshed_asset _, s.refreshed_absorbed _⟩

theorem State.Tallied.severityRaised (a : Nat) : (s.severityRaised a).Tallied f := by
  refine (h.onRecordOf hl a (g := s.worsened) (n := fun m => m)
    fun r => ⟨s.refreshed_asset _, s.refreshed_absorbed { r with severity := .fail }⟩).congr fun _ r _ => ?_
  split <;> rfl

end

theorem State.Tallied.discard {s t : State} {f : Nat → Nat} (h : s.Tallied f) {id : Nat} (ht : t.records = s.records.del id) :
    t.Tallied f := by
  intro j r hr
  rw [ht] at hr
  by_cases hj : j = id
  · rw [hj, Table.get?_del_self] at hr
    cases hr
  · exact h j r (Table.get?_del_of_ne _ hj ▸ hr)

/-- A new record's n is what its creation counts. -/
theorem State.Tallied.createRecord {s : State} {f : Nat → Nat} (h : s.Tallied f) (hw : s.records.wf = true) {a : Nat} {x : Asset}
    {severity : Severity} (hx : s.asset? a = some x) (hf : x.health = .faulty severity) (ha : f a = s.countedAtCreation a) :
    (s.createRecord a).Tallied f := by
  intro id r hr
  rw [State.createRecord_eq hw hx hf] at hr
  by_cases hid : id = s.freeId
  · rw [hid] at hr
    obtain rfl := Option.some.inj ((Table.get?_put_self _ _ _).symm.trans hr)
    exact ha.symm
  · exact h id r ((Table.get?_put_of_ne _ _ hid).symm.trans hr)

/-! ## The count at creation (R135) -/

theorem State.visited_nodup_of_run {s : State} (hf : s.Forest) (hm : s.mode = .run) : s.visited.Nodup := by
  rw [State.visited_of_run hm]
  exact State.nodup_of_pairwise_lt ((Table.wf_iff _).1 hf.wf)

/-- In RUN a new record counts at once all that name its asset. -/
theorem State.Forest.countedAtCreation_of_run {s : State} (hf : s.Forest) (hm : s.mode = .run) (ha : s.AncestorLaw) (a : Nat) :
    s.countedAtCreation a = s.count a := by
  have counted (d : Nat) : ((s.asset? d).map fun y => decide (y.health ≠ .healthy ∧ y.absorbedBy = some a)) = some true
      ↔ s.countedBy a d = true := by
    rw [State.countedBy_iff]
    cases s.asset? d <;> simp
  have below {d : Nat} (hd : d ∈ s.visited ∧ s.countedBy a d = true) : d ∈ s.descendantsOf a :=
    hf.mem_descendantsOf.2 (ha d hd.1 a (State.countedBy_absorber hd.2))
  have perm : (s.visited.filter fun d => s.countedBy a d).Perm ((s.descendantsOf a).filter fun d =>
      ((s.asset? d).map fun y => decide (y.health ≠ .healthy ∧ y.absorbedBy = some a)) = some true) := by
    rw [List.perm_ext_iff_of_nodup ((State.visited_nodup_of_run hf hm).filter _) ((hf.nodup_descendantsOf a).filter _)]
    intro d
    rw [List.mem_filter, List.mem_filter, decide_eq_true_eq, counted]
    refine ⟨fun hd => ⟨below hd, hd.2⟩, fun hd => ⟨?_, hd.2⟩⟩
    obtain ⟨x, hx, -⟩ := State.countedBy_iff.1 hd.2
    exact (State.mem_visited_of_run hf hm).2 (by rw [hx]; exact nofun)
  rw [State.count, perm.length_eq, State.countedAtCreation]
  split
  · next hc =>
    rcases hc with hc | hc
    · rw [hm] at hc
      cases hc
    · rw [hf.descendantsOf_eq, hc]
      rfl
  · rfl

theorem State.countedAtCreation_of_entering {s : State} (hm : s.mode = .entering) (a : Nat) : s.countedAtCreation a = 0 :=
  if_pos (.inl hm)

end Sys2Proof.Machine
end

section
/-! PROOFS. The count law through samples and walk visits in RUN (O22). -/

namespace Sys2Proof.Machine

/-- Absorbers are ancestors, and every record counts the FAULTY assets that name its asset. -/
structure State.Counted (s : State) : Prop where
  above : s.AncestorLaw
  tally : s.Tallied s.count

theorem State.Counted.of_tally {s t : State} (h : s.AncestorLaw) (hst : s.Steady t) {f : Nat → Nat} (ht : t.Tallied f)
    (hf : ∀ id r, t.records.get? id = some r → f r.asset = s.count r.asset) : t.Counted :=
  ⟨hst.ancestorLaw h, ht.congr fun id r hr => (hf id r hr).trans (hst.count _).symm⟩

theorem State.Counted.of_steady {s t : State} (h : s.Counted) (hst : s.Steady t) (ht : t.Tallied s.count) : t.Counted :=
  .of_tally h.above hst ht fun _ _ _ => rfl

section
variable {s : State} (hc : s.Counted) (hf : s.Forest) (hm : s.mode = .run)
include hc hf hm

/-- A record created in RUN counts at once all that name its asset (R135). -/
theorem State.Counted.createRecord (hw : s.records.wf = true) {a : Nat} {x : Asset} {severity : Severity}
    (hx : s.asset? a = some x) (hs : x.health = .faulty severity) : (s.createRecord a).Counted :=
  hc.of_steady (.createRecord hw hx hs)
    (hc.tally.createRecord hw hx hs (hf.countedAtCreation_of_run hm hc.above a).symm)

theorem State.Counted.serveWaiting (hb : s.Balanced) : s.serveWaiting.Counted := by
  cases hw : s.waiting with
  | nil =>
    have served : s.serveWaiting = s := by rw [State.serveWaiting, hw]
    exact served.symm ▸ hc
  | cons a rest =>
    obtain ⟨x, severity, hx, hs, -, -⟩ := hb.head hw id
    rw [hb.serveWaiting_cons hw]
    have steady := State.Steady.leaveWaiting s a
    exact (hc.of_steady steady (hc.tally.of_records rfl)).createRecord (hf.of_tree steady.tree) (steady.mode.trans hm)
      hb.canonical.2.2.2 (State.asset?_leaveWaiting hx) hs

theorem State.Counted.openFault (hw : s.records.wf = true) {a : Nat} {x : Asset} (hx : s.asset? a = some x)
    (hs : x.health ≠ .healthy) (hab : x.absorbedBy = none) : (s.openFault a).Counted := by
  obtain ⟨severity, hs⟩ := Health.faulty_of_ne hs
  unfold State.openFault
  rw [hx]
  dsimp only
  rw [hab]
  dsimp only
  split
  · exact hc.createRecord hf hm hw hx hs
  · exact hc.of_steady (.joinWaiting s a) (hc.tally.of_records rfl)

end

/-! ## A change of one asset -/

/-- The FAULTY asset counts in its absorber's place. -/
def Asset.countsFor (x : Asset) (b : Nat) : Nat := if x.health ≠ .healthy ∧ x.absorbedBy = some b then 1 else 0

theorem State.countedBy_eq {s : State} {d : Nat} {x : Asset} (hx : s.asset? d = some x) (b : Nat) :
    s.countedBy b d = true ↔ x.health ≠ .healthy ∧ x.absorbedBy = some b := by
  rw [State.countedBy_iff]
  constructor
  · rintro ⟨y, hy, h⟩
    obtain rfl := Option.some.inj (hx.symm.trans hy)
    exact h
  · exact fun h => ⟨x, hx, h⟩

section
variable {s : State} (hf : s.Forest) (hm : s.mode = .run) {d : Nat} {x : Asset} (hx : s.asset? d = some x)
include hf hm hx

/-- What a change of one asset does to the counts in RUN. -/
theorem State.Forest.count_adjustAsset {g : Asset → Asset} (hg : ∀ x, (g x).config = x.config) (b : Nat) :
    (s.adjustAsset d g).count b + x.countsFor b = s.count b + (g x).countsFor b := by
  have tree := s.tree_adjustAsset d hg
  have hft : (s.adjustAsset d g).Forest := hf.of_tree tree
  have hmt : (s.adjustAsset d g).mode = .run := hm
  have moved := State.count_move (State.visited_nodup_of_run hf hm) (State.visited_nodup_of_run hft hmt) b d fun e hne => by
    rw [State.mem_visited_of_run hf hm, State.mem_visited_of_run hft hmt, State.countedBy_iff, State.countedBy_iff,
      State.asset?_adjustAsset_of_ne hne]
  have hv : d ∈ s.visited := (State.mem_visited_of_run hf hm).2 (by rw [hx]; exact nofun)
  have hy := State.asset?_adjustAsset_self hx g
  have hvt : d ∈ (s.adjustAsset d g).visited := (State.mem_visited_of_run hft hmt).2 (by rw [hy]; exact nofun)
  simp only [hv, hvt, true_and, State.countedBy_eq hx, State.countedBy_eq hy] at moved
  exact moved

/-- The ancestors' law after a change of one asset. -/
theorem State.AncestorLaw.adjustAsset (ha : s.AncestorLaw) {g : Asset → Asset} (hg : ∀ x, (g x).config = x.config)
    (hab : ∀ z ∈ (g x).absorbedBy, z ∈ s.ancestorsOf d) : (s.adjustAsset d g).AncestorLaw := by
  have tree := s.tree_adjustAsset d hg
  have hft : (s.adjustAsset d g).Forest := hf.of_tree tree
  have hmt : (s.adjustAsset d g).mode = .run := hm
  intro e he z hz
  rw [State.ancestorsOf_of_tree tree]
  have present := (State.mem_visited_of_run hft hmt).1 he
  by_cases hed : e = d
  · subst hed
    rw [(State.reads_of_asset? (State.asset?_adjustAsset_self hx g)).1] at hz
    exact hab z hz
  · rw [State.absorbedByOf_congr (State.asset?_adjustAsset_of_ne hed g)] at hz
    rw [State.asset?_adjustAsset_of_ne hed] at present
    exact ha e ((State.mem_visited_of_run hf hm).2 present) z hz

end

/-! ## Samples -/

section
variable {s : State} (hc : s.Counted) (hf : s.Forest) (hm : s.mode = .run)
include hc hf hm

/-- A change of condition leaves the absorbers. -/
theorem State.Counted.above_conditioned {a : Nat} {x : Asset} (hx : s.asset? a = some x) (i : Nat) (k : Health) :
    (s.adjustAsset a fun x => x.conditioned i k).AncestorLaw := by
  refine State.AncestorLaw.adjustAsset hf hm hx hc.above (g := fun x => x.conditioned i k) (fun _ => rfl) fun z hz => ?_
  refine hc.above a ((State.mem_visited_of_run hf hm).2 (by rw [hx]; exact nofun)) z ?_
  rw [(State.reads_of_asset? hx).1]
  exact hz

/-- A change of condition that nothing counts. -/
theorem State.Counted.conditioned {a : Nat} {x : Asset} (hx : s.asset? a = some x) (i : Nat) (k : Health)
    (hk : x.absorbedBy = none ∨ (x.health = .healthy ↔ k = .healthy)) :
    (s.adjustAsset a fun x => x.conditioned i k).Counted := by
  refine .of_tally (hc.above_conditioned hf hm hx i k) (.refl _) (hc.tally.of_records rfl) fun id r hr => ?_
  have moved := hf.count_adjustAsset hm hx (g := fun x => x.conditioned i k) (fun _ => rfl) r.asset
  have same : x.countsFor r.asset = (x.conditioned i k).countsFor r.asset := by
    unfold Asset.countsFor
    rcases hk with hk | hk
    · rw [if_neg (by simp [hk]), if_neg (by simp [Asset.conditioned, hk])]
    · exact if_congr (and_congr_left' (not_congr hk)) rfl rfl
  omega

/-- The record an asset holds goes; none counts the asset. -/
theorem State.Counted.clearRecord {id a : Nat} {x : Asset} (hl : s.Ledger (· = a)) (hx : s.asset? a = some x)
    (hid : x.faultId = some id) (hw : x.waiting = false) (hh : x.health = .healthy) (manual : Bool) :
    (s.clearRecord id a manual).Counted := by
  rw [State.clearRecord_eq]
  have balanced := hl.settle_discarded hx hid (t := { s with
      records := s.records.del id, assets := s.assets.adjust a fun x => { x with faultId := none },
      trunk := s.trunk.place ⟨s.trunk.node, .notice (.cleared id a manual)⟩,
      walkList := if s.childrenOf a = [] then s.walkList else queueEntry s.walkList a .release }) rfl rfl hw
    (fun hn => absurd hh hn) rfl
  have steady : s.Steady ({ s with
      records := s.records.del id, assets := s.assets.adjust a fun x => { x with faultId := none },
      trunk := s.trunk.place ⟨s.trunk.node, .notice (.cleared id a manual)⟩,
      walkList := if s.childrenOf a = [] then s.walkList else queueEntry s.walkList a .release } : State) :=
    (State.Steady.discardRecord s id a).trans (.of_assets rfl rfl rfl)
  exact (hc.of_steady steady (hc.tally.discard rfl)).serveWaiting (hf.of_tree steady.tree) hm balanced

end

theorem Asset.countsFor_of_faulty {x : Asset} (hh : x.health ≠ .healthy) {z : Nat} (hab : x.absorbedBy = some z) (b : Nat) :
    x.countsFor b = if b = z then 1 else 0 := by
  rw [Asset.countsFor, hab]
  exact if_congr (by simp [hh, eq_comm]) rfl rfl

theorem Asset.countsFor_of_healthy {x : Asset} (hh : x.health = .healthy) (b : Nat) : x.countsFor b = 0 :=
  if_neg fun h => h.1 hh

theorem Asset.countsFor_of_unabsorbed {x : Asset} (hab : x.absorbedBy = none) (b : Nat) : x.countsFor b = 0 :=
  if_neg fun h => by rw [hab] at h; cases h.2

section
variable {s : State} (hc : s.Counted) (hf : s.Forest) (hm : s.mode = .run) (h : s.Balanced)
include hc hf hm h

/-- A fault that is counted by its absorber's record (R104). -/
theorem State.Counted.raised {a z : Nat} {x : Asset} (hx : s.asset? a = some x) (hh : x.health = .healthy)
    (hab : x.absorbedBy = some z) {k : Health} (hk : k ≠ .healthy) (i : Nat) :
    ((s.adjustAsset a fun x => x.conditioned i k).raiseOn z).Counted := by
  have opened := h.opened a (f := fun x => x.conditioned i k) fun _ => rfl
  refine .of_tally (hc.above_conditioned hf hm hx i k) (.onRecordOf _ _ _)
    (State.Tallied.raiseOn opened (hc.tally.of_records rfl) z) fun id r _ => ?_
  have moved := hf.count_adjustAsset hm hx (g := fun x => x.conditioned i k) (fun _ => rfl) r.asset
  rw [Asset.countsFor_of_healthy hh, Asset.countsFor_of_faulty (x := x.conditioned i k) hk hab] at moved
  split_ifs at moved ⊢ <;> omega

/-- A recovery that is counted off by its absorber's record (R108). -/
theorem State.Counted.lowered {a z : Nat} {x : Asset} (hx : s.asset? a = some x) (hh : x.health ≠ .healthy)
    (hab : x.absorbedBy = some z) (i : Nat) : ((s.adjustAsset a fun x => x.conditioned i .healthy).lowerOn z).Counted := by
  have opened := h.opened a (f := fun x => x.conditioned i .healthy) fun _ => rfl
  refine .of_tally (hc.above_conditioned hf hm hx i .healthy) (.onRecordOf _ _ _)
    (State.Tallied.lowerOn opened (hc.tally.of_records rfl) z) fun id r _ => ?_
  have moved := hf.count_adjustAsset hm hx (g := fun x => x.conditioned i .healthy) (fun _ => rfl) r.asset
  rw [Asset.countsFor_of_healthy (x := x.conditioned i .healthy) rfl, Asset.countsFor_of_faulty hh hab] at moved
  split_ifs at moved ⊢ <;> omega

theorem State.Counted.sample (a : Nat) : (s.sample a).Counted := by
  cases hx : s.asset? a with
  | none =>
    rw [State.sample_absent hx]
    exact hc
  | some x =>
    obtain ⟨i, k, ⟨rfl, he⟩ | ⟨hh, hk, he⟩ | ⟨hh, rfl, he⟩ | ⟨hh, rfl, he⟩⟩ := State.sample_cases h.canonical.1 hx <;> rw [he]
    · exact hc.conditioned hf hm hx i _ (.inr Iff.rfl)
    · have hy := State.asset?_adjustAsset_self hx fun y => y.conditioned i k
      have tree := s.tree_adjustAsset a (f := fun y => y.conditioned i k) fun _ => rfl
      cases hab : x.absorbedBy with
      | none =>
        exact (hc.conditioned hf hm hx i k (.inl hab)).openFault (hf.of_tree tree) hm h.canonical.2.2.2 hy hk hab
      | some z =>
        have raise : (s.adjustAsset a fun y => y.conditioned i k).openFault a
            = (s.adjustAsset a fun y => y.conditioned i k).raiseOn z := by
          rw [State.openFault, hy]
          dsimp only
          rw [show (x.conditioned i k).absorbedBy = some z from hab]
        rw [raise]
        exact hc.raised hf hm h hx hh hab hk i
    · have hy := State.asset?_adjustAsset_self hx fun y => y.conditioned i .healthy
      have tree := s.tree_adjustAsset a (f := fun y => y.conditioned i .healthy) fun _ => rfl
      have opened := h.opened a (f := fun x => x.conditioned i .healthy) fun _ => rfl
      unfold State.becameHealthy
      rw [hy]
      dsimp only
      cases (h.assetLaw hx).placed with
      | healthy hh' => exact absurd hh' hh
      | absorbed z _ hab hid hw =>
        rw [show (x.conditioned i .healthy).faultId = none from hid, show (x.conditioned i .healthy).absorbedBy = some z from hab]
        exact hc.lowered hf hm h hx hh hab i
      | holding own _ hab hid hw =>
        rw [show (x.conditioned i .healthy).faultId = some own from hid]
        exact (hc.conditioned hf hm hx i .healthy (.inl hab)).clearRecord (hf.of_tree tree) hm opened hy hid hw rfl false
      | waits _ hab hid hw =>
        rw [show (x.conditioned i .healthy).faultId = none from hid, show (x.conditioned i .healthy).absorbedBy = none from hab]
        dsimp only
        rw [if_pos (by exact hw)]
        have counted := hc.conditioned hf hm hx i .healthy (.inl hab)
        exact counted.of_steady (.leaveWaiting _ a) (counted.tally.of_records rfl)
    · have counted := hc.conditioned hf hm hx i (.faulty .fail) (.inr (by rw [hh]; exact ⟨nofun, nofun⟩))
      have opened := h.opened a (f := fun x => x.conditioned i (.faulty .fail)) fun _ => rfl
      exact counted.of_steady (.onRecordOf _ _ _) (State.Tallied.severityRaised opened counted.tally a)

theorem State.Counted.close {id : Nat} {r : FaultRecord} (hr : s.records.get? id = some r) :
    ((s.adjustAsset r.asset fun x => { x with integrator := 0, health := .healthy }).clearRecord id r.asset true).Counted := by
  obtain ⟨x, hx, hid⟩ := State.faultIdOf_eq_some.1 (h.holder hr)
  obtain ⟨hab, hw, -⟩ := (h.assetLaw hx).1 id hid
  have tree := s.tree_adjustAsset r.asset (f := fun y => y.conditioned 0 .healthy) fun _ => rfl
  exact (hc.conditioned hf hm hx 0 .healthy (.inl hab)).clearRecord (hf.of_tree tree) hm
    (h.opened r.asset (f := fun x => x.conditioned 0 .healthy) fun _ => rfl)
    (State.asset?_adjustAsset_self hx fun x => x.conditioned 0 .healthy) hid hw rfl true

/-! ## Walk visits -/

omit hc hf hm h in
theorem State.faultIdOf_setAbsorber (s : State) (d : Nat) (z : Option Nat) (b : Nat) :
    (s.setAbsorber d z).faultIdOf b = s.faultIdOf b := by
  rw [State.setAbsorber, State.faultIdOf, State.asset?_adjustAsset, State.faultIdOf]
  split
  · cases s.asset? b <;> rfl
  · rfl

omit h in
/-- A change of absorber that names an ancestor. -/
theorem State.Counted.above_setAbsorber {d : Nat} {x : Asset} (hx : s.asset? d = some x) {z : Option Nat}
    (hz : ∀ y ∈ z, y ∈ s.ancestorsOf d) : (s.setAbsorber d z).AncestorLaw :=
  State.AncestorLaw.adjustAsset hf hm hx hc.above (g := fun x => { x with absorbedBy := z }) (fun _ => rfl) hz

omit hc h in
theorem State.Forest.count_setAbsorber {d : Nat} {x : Asset} (hx : s.asset? d = some x) (z : Option Nat) (b : Nat) :
    (s.setAbsorber d z).count b + x.countsFor b = s.count b + Asset.countsFor { x with absorbedBy := z } b :=
  hf.count_adjustAsset hm hx (g := fun x => { x with absorbedBy := z }) (fun _ => rfl) b

/-- A visit of an ABSORB walk (R132). -/
theorem State.Counted.absorbAt {a d : Nat} {x : Asset} (hx : s.asset? d = some x) (ha : a ∈ s.ancestorsOf d) (id : Nat) :
    (s.absorbAt a id d).Counted := by
  have above := hc.above_setAbsorber hf hm hx (z := some a) fun y hy => Option.some.inj hy ▸ ha
  have hy := State.asset?_setAbsorber hx (some a)
  have named := h.opened d (f := fun x => { x with absorbedBy := some a }) fun _ => rfl
  have moved := hf.count_setAbsorber hm hx (some a)
  have kept : (s.setAbsorber d (some a)).Tallied s.count := hc.tally.of_records rfl
  have tree : (s.setAbsorber d (some a)).tree = s.tree := s.tree_adjustAsset d (f := fun x => { x with absorbedBy := some a }) fun _ => rfl
  -- An asset that no record counted is counted by the root's record now.
  have raised (hf' : x.health ≠ .healthy) (hab : x.absorbedBy = none) : ((s.setAbsorber d (some a)).raiseOn a).Counted := by
    refine .of_tally above (.onRecordOf _ _ _) (State.Tallied.raiseOn named kept a) fun _ r _ => ?_
    have moved := moved r.asset
    rw [Asset.countsFor_of_unabsorbed hab, Asset.countsFor_of_faulty (x := { x with absorbedBy := some a }) hf' rfl] at moved
    split_ifs at moved ⊢ <;> omega
  rcases h.absorbAt_cases hx a id with ⟨hab, he⟩ | ⟨hne, ⟨hh, -, -, he⟩ | ⟨z, hh, hab, -, -, he⟩ | ⟨own, hh, hab, hid, hw, he⟩
    | ⟨hh, hab, -, -, he⟩⟩ <;> rw [he]
  · exact hc
  · refine .of_tally above (.refl _) kept fun _ r _ => ?_
    have moved := moved r.asset
    rw [Asset.countsFor_of_healthy hh, Asset.countsFor_of_healthy (x := { x with absorbedBy := some a }) hh] at moved
    omega
  · refine .of_tally above ((State.Steady.onRecordOf _ _ _).trans (.onRecordOf _ _ _))
      (State.Tallied.raiseOn (named.lowerOn z) (State.Tallied.lowerOn named kept z) a) fun _ r _ => ?_
    have moved := moved r.asset
    rw [Asset.countsFor_of_faulty hh hab, Asset.countsFor_of_faulty (x := { x with absorbedBy := some a }) hh rfl] at moved
    have hza : z ≠ a := fun he => hne (he ▸ hab)
    split_ifs at moved ⊢ <;> omega
  · have counted := raised hh hab
    have hy' := (State.raiseOn_asset? _ a d).trans hy
    have steady := State.Steady.discardRecord ((s.setAbsorber d (some a)).raiseOn a) own d
    have forest : ((s.setAbsorber d (some a)).raiseOn a).Forest := hf.of_tree ((State.Steady.onRecordOf _ _ _).tree.trans tree)
    have mode : ((s.setAbsorber d (some a)).raiseOn a).mode = .run := (State.Steady.onRecordOf _ _ _).mode.trans hm
    have balanced := (named.raiseOn a).settle_discarded (t := (((s.setAbsorber d (some a)).raiseOn a).discardRecord own d).notify
      (.absorbed own id)) hy' hid rfl rfl hw (fun _ => nofun) rfl
    have steady' := steady.trans (t := ((s.setAbsorber d (some a)).raiseOn a).discardRecord own d)
      (u := (((s.setAbsorber d (some a)).raiseOn a).discardRecord own d).notify (.absorbed own id)) (.of_assets rfl rfl rfl)
    exact (counted.of_steady steady' (counted.tally.discard rfl)).serveWaiting (forest.of_tree steady'.tree)
      (steady'.mode.trans mode) balanced
  · exact (raised hh hab).of_steady (.leaveWaiting _ d) ((raised hh hab).tally.of_records rfl)

/-- A visit of a RELEASE walk whose root holds no record (R134). -/
theorem State.Counted.releaseAt {a d : Nat} {x : Asset} (hx : s.asset? d = some x) (ha : s.faultIdOf a = none) :
    (s.releaseAt a d).Counted := by
  rw [State.releaseAt_eq hx]
  split
  · next hr =>
    obtain ⟨z₀, hz₀, hor⟩ := State.releases_iff.1 hr
    have unheld : s.faultIdOf z₀ = none := hor.elim (fun he => he ▸ ha) id
    have above (z : Option Nat) (hz : s.highestHolder d = z) : (s.setAbsorber d z).AncestorLaw :=
      hc.above_setAbsorber hf hm hx fun y hy => State.highestHolder_mem (hz.trans hy)
    have named (z : Option Nat) := h.opened d (f := fun x => { x with absorbedBy := z }) fun _ => rfl
    have kept (z : Option Nat) : (s.setAbsorber d z).Tallied s.count := hc.tally.of_records rfl
    have tree (z : Option Nat) : (s.setAbsorber d z).tree = s.tree :=
      s.tree_adjustAsset d (f := fun x => { x with absorbedBy := z }) fun _ => rfl
    -- The old absorber holds no record, so that no record counts the asset any more or less.
    have moved (z : Option Nat) {b : Nat} (hb : s.faultIdOf b ≠ none) :
        (s.setAbsorber d z).count b = s.count b + Asset.countsFor { x with absorbedBy := z } b := by
      have moved := hf.count_setAbsorber hm hx z b
      have hne : b ≠ z₀ := fun he => hb (he ▸ unheld)
      have none : x.countsFor b = 0 := if_neg fun hn => hne (Option.some.inj (hn.2.symm.trans hz₀))
      omega
    have held {id : Nat} {r : FaultRecord} (hr : s.records.get? id = some r) : s.faultIdOf r.asset ≠ none := by
      rw [h.holder hr]
      exact nofun
    cases hh : s.highestHolder d with
    | some z =>
      dsimp only
      split
      · next hhealth =>
        refine .of_tally (above _ hh) (.refl _) (kept _) fun id r hr => ?_
        rw [moved (some z) (held (id := id) hr), Asset.countsFor_of_healthy (x := { x with absorbedBy := some z }) hhealth]
        rfl
      · next hhealth =>
        refine .of_tally (above _ hh) (.onRecordOf _ _ _) (State.Tallied.raiseOn (named (some z)) (kept _) z) fun id r hr => ?_
        have holds := ((named (some z)).raiseOn z).holder hr
        have same : (s.setAbsorber d (some z)).faultIdOf r.asset = s.faultIdOf r.asset :=
          State.faultIdOf_setAbsorber s d (some z) r.asset
        have hb : s.faultIdOf r.asset ≠ none := by
          have raised : ((s.setAbsorber d (some z)).raiseOn z).faultIdOf r.asset = (s.setAbsorber d (some z)).faultIdOf r.asset :=
            State.faultIdOf_congr (State.raiseOn_asset? _ _ _)
          rw [← same, ← raised]
          exact fun hn => by cases holds.symm.trans hn
        rw [moved (some z) hb, Asset.countsFor_of_faulty (x := { x with absorbedBy := some z }) hhealth rfl]
        split <;> rfl
    | none =>
      dsimp only
      have counted : (s.setAbsorber d none).Counted := by
        refine .of_tally (above _ hh) (.refl _) (kept _) fun id r hr => ?_
        rw [moved none (held (id := id) hr), Asset.countsFor_of_unabsorbed rfl]
        rfl
      split
      · exact counted
      · next hhealth =>
        exact counted.openFault (hf.of_tree (tree none)) hm h.canonical.2.2.2 (State.asset?_setAbsorber hx none) hhealth rfl
  · exact hc

end

end Sys2Proof.Machine
end

section
/-! PROOFS. The count law through the rebuild, ASSET LOAD and ERASE, and so under every step (O22). -/

namespace Sys2Proof.Machine

/-! ## The assets the rebuild has visited -/

/-- The rebuild's own part of the law (R138): the asset visited last is in the tree, and absorbers set so far hold records. -/
structure State.Rebuilding (s : State) : Prop where
  last : ∀ b ∈ s.rebuild, ∀ v ∈ b.last, v ∈ s.forest
  holds : ∀ d ∈ s.visited, ∀ z ∈ s.absorbedByOf d, s.faultIdOf z ≠ none

section
variable {s : State} (hf : s.Forest) (hr : s.Rebuilding) (hm : s.mode = .entering)
include hf hr hm

/-- The assets visited begin the order of the forest. -/
theorem State.Rebuilding.forest : ∃ post, s.forest = s.visited ++ post := by
  cases hb : s.rebuild with
  | none => exact ⟨s.forest, by simp [State.visited, hm, hb]⟩
  | some b =>
    cases hl : b.last with
    | none => exact ⟨s.forest, by simp [State.visited, hm, hb, hl]⟩
    | some v =>
      obtain ⟨pre, post, he⟩ := List.append_of_mem (hr.last b hb v hl)
      refine ⟨post, ?_⟩
      simp only [State.visited, hm, hb, hl]
      rw [he, takeWhile_ne_append (hf.not_mem_before he)]
      simp

theorem State.Rebuilding.visited_nodup : s.visited.Nodup := by
  obtain ⟨post, he⟩ := hr.forest hf hm
  have nodup := hf.nodup_forest
  rw [he] at nodup
  exact (List.nodup_append.1 nodup).1

theorem State.Rebuilding.present {d : Nat} (hd : d ∈ s.visited) : s.asset? d ≠ none := by
  obtain ⟨post, he⟩ := hr.forest hf hm
  rw [← hf.mem_forest, he]
  exact List.mem_append_left _ hd

omit hf hm in
/-- Nothing counted so far names an asset without a record. -/
theorem State.Rebuilding.count_unheld {b : Nat} (hb : s.faultIdOf b = none) : s.count b = 0 := by
  rw [State.count, List.length_eq_zero_iff, List.filter_eq_nil_iff]
  exact fun d hd hc => hr.holds d hd b (State.countedBy_absorber hc) hb

end

/-! ## Bounds -/

/-- A record counts fewer assets than there are: its own asset is not absorbed (R126). -/
theorem State.Balanced.count_lt {s : State} (h : s.Balanced) (hn : s.visited.Nodup)
    (hp : ∀ d ∈ s.visited, d < Config.assetCapacity) {id : Nat} {r : FaultRecord} (hr : s.records.get? id = some r)
    (hb : r.asset < Config.assetCapacity) : s.count r.asset < Config.assetCapacity := by
  have unabsorbed := h.absorber_of_holder (a := r.asset) (by rw [h.holder hr]; exact nofun)
  have inside : (s.visited.filter fun d => s.countedBy r.asset d) ⊆ (List.range Config.assetCapacity).erase r.asset := by
    intro d hd
    obtain ⟨hv, hc⟩ := List.mem_filter.1 hd
    rw [List.nodup_range.mem_erase_iff, List.mem_range]
    refine ⟨?_, hp d hv⟩
    rintro rfl
    rw [State.countedBy_absorber hc] at unabsorbed
    cases unabsorbed
  have le := ((hn.filter _).subperm inside).length_le
  rw [List.length_erase_of_mem (List.mem_range.2 hb), List.length_range] at le
  have : s.count r.asset ≤ Config.assetCapacity - 1 := le
  omega

/-! ## A visit of the rebuild -/

theorem State.Served.holds_mono {s t : State} (h : s.Served t) {b : Nat} (hb : s.faultIdOf b ≠ none) :
    t.faultIdOf b ≠ none := by
  rcases h with h | ⟨a, h⟩
  · rw [h.holds]
    exact hb
  · rw [h.holds b fun he => hb (he ▸ h.fresh)]
    exact hb

theorem State.Served.absorber {s t : State} (h : s.Served t) (d : Nat) : t.absorbedByOf d = s.absorbedByOf d :=
  h.elim (fun h => h.absorber d) fun ⟨_, h⟩ => h.absorber d

theorem State.Served.mode {s t : State} (h : s.Served t) : t.mode = s.mode := by
  rcases h with h | ⟨a, h⟩
  · exact (Prod.mk.inj (Prod.mk.inj (State.walking_of_correlation h.correlation)).2).1
  · exact (Prod.mk.inj (Prod.mk.inj h.walking).2).1

/-- In the rebuild a record served counts nothing yet (R135). -/
theorem State.Balanced.serveWaiting_tally {u : State} (hb : u.Balanced) (hm : u.mode = .entering) {f : Nat → Nat}
    (ht : u.Tallied f) (hz : ∀ b, b ∈ u.waiting → f b = 0) : u.serveWaiting.Tallied f ∧ u.Steady u.serveWaiting := by
  cases hw : u.waiting with
  | nil =>
    have served : u.serveWaiting = u := by rw [State.serveWaiting, hw]
    rw [served]
    exact ⟨ht, .refl u⟩
  | cons a rest =>
    obtain ⟨x, severity, hx, hs, -, -⟩ := hb.head hw id
    have left : (u.leaveWaiting a).Tallied f := ht.of_records rfl
    have hy := State.asset?_leaveWaiting hx
    have steady := State.Steady.leaveWaiting u a
    rw [hb.serveWaiting_cons hw]
    refine ⟨left.createRecord hb.canonical.2.2.2 hy hs ?_, steady.trans (.createRecord (s := u.leaveWaiting a) hb.canonical.2.2.2 hy hs)⟩
    rw [State.countedAtCreation_of_entering (steady.mode.trans hm)]
    exact hz a (hw ▸ List.mem_cons_self)

section
variable {s : State} (h : s.Balanced) (hcrowd : s.Crowded) (hm : s.mode = .entering) (ht : s.Tallied s.count)
  (hr : s.Rebuilding) {v : Nat} {x : Asset} (hx : s.asset? v = some x)
include h hcrowd hm ht hr hx

/-- Each record counts v in addition, if v is FAULTY and named the record's asset. -/
theorem State.Balanced.rebuildAt_tally (hv : s.count v = 0) :
    (s.setAbsorber v (s.highestHolder v)).Steady (s.rebuildAt v)
      ∧ (s.rebuildAt v).Tallied fun b => s.count b + Asset.countsFor { x with absorbedBy := s.highestHolder v } b := by
  have kept (z : Option Nat) : (s.setAbsorber v z).Tallied s.count := ht.of_records rfl
  have named (z : Option Nat) := h.opened v (f := fun x => { x with absorbedBy := z }) fun _ => rfl
  have waits {b : Nat} (hb : b ∈ s.waiting) : s.count b = 0 := by
    refine hr.count_unheld ?_
    obtain ⟨y, hy⟩ := Option.ne_none_iff_exists'.1 (h.present hb)
    rw [(State.reads_of_asset? hy).2]
    exact ((h.assetLaw hy).2.1 ((h.flags hy).2 hb)).2.2
  cases hh : s.highestHolder v with
  | none =>
    rw [State.rebuildAt_alone hx hh]
    have uncounted {t : State} (htt : t.Tallied s.count) :
        t.Tallied fun b => s.count b + Asset.countsFor { x with absorbedBy := none } b :=
      htt.congr fun _ r _ => by rw [Asset.countsFor_of_unabsorbed (x := { x with absorbedBy := none }) rfl]; rfl
    split
    · next hfy =>
      have hy := State.asset?_setAbsorber hx none
      obtain ⟨severity, hs⟩ := Health.faulty_of_ne hfy.1
      unfold State.openFault
      rw [hy]
      dsimp only
      split
      · refine ⟨.createRecord (s := s.setAbsorber v none) h.canonical.2.2.2 hy hs, uncounted ((kept none).createRecord h.canonical.2.2.2 hy hs ?_)⟩
        rw [State.countedAtCreation_of_entering (by exact hm), hv]
      · exact ⟨.joinWaiting _ v, uncounted ((kept none).of_records rfl)⟩
    · exact ⟨.refl _, uncounted (kept none)⟩
  | some a =>
    have counted {t : State} (hl : t.Balanced) (htt : t.Tallied s.count) (hfy : x.health ≠ .healthy) :
        (t.raiseOn a).Tallied fun b => s.count b + Asset.countsFor { x with absorbedBy := some a } b :=
      (State.Tallied.raiseOn hl htt a).congr fun _ r _ => by
        rw [Asset.countsFor_of_faulty (x := { x with absorbedBy := some a }) hfy rfl]
        split <;> rfl
    have hy := State.asset?_setAbsorber hx (some a)
    rcases h.rebuildAt_under hx hh with ⟨hfy, -, -, he⟩ | ⟨z, hfy, -, hid, hw, he⟩ | ⟨own, hfy, -, hid, hw, he⟩
      | ⟨hfy, -, hid, -, he⟩ <;> rw [he]
    · refine ⟨.refl _, (kept (some a)).congr fun _ r _ => ?_⟩
      rw [Asset.countsFor_of_healthy (x := { x with absorbedBy := some a }) hfy]
      rfl
    · exact ⟨.onRecordOf _ _ _, counted ((named (some a)).settle_outside hy hid hw fun _ => nofun) (kept _) hfy⟩
    · have balanced := (named (some a)).settle_discarded (t := ((s.setAbsorber v (some a)).discardRecord own v).notify
        (.absorbed own (((s.setAbsorber v (some a)).faultIdOf a).getD 0))) hy hid rfl rfl hw (fun _ => nofun) rfl
      obtain ⟨htt, hst⟩ := balanced.serveWaiting_tally hm ((kept (some a)).discard rfl) fun b hb => waits hb
      have discarded := (State.Steady.discardRecord (s.setAbsorber v (some a)) own v).trans
        (u := ((s.setAbsorber v (some a)).discardRecord own v).notify
          (.absorbed own (((s.setAbsorber v (some a)).faultIdOf a).getD 0))) (.of_assets rfl rfl rfl)
      refine ⟨(discarded.trans hst).trans (.onRecordOf _ _ _), counted ?_ htt hfy⟩
      exact ((named (some a)).settle_absorbed hy (hcrowd.of_same rfl rfl) hid hw nofun _).1
    · exact ⟨(State.Steady.leaveWaiting _ v).trans (.onRecordOf _ _ _),
        counted ((named (some a)).settle_left hy hid nofun) ((kept (some a)).of_records rfl) hfy⟩

end

/-- A visit of the rebuild keeps the count law over the assets visited, the one it visits among them. -/
theorem State.Counted.rebuildVisit {s : State} (hc : s.Counted) (hr : s.Rebuilding) (hf : s.Forest) (h : s.Balanced)
    (hcrowd : s.Crowded) (hm : s.mode = .entering) {b : Rebuild} (hb : s.rebuild = some b) {v : Nat}
    (hv : s.rebuildNext b.last = some v) :
    ((s.rebuildAt v).setRebuild (some { b with last := some v })).Counted
      ∧ ((s.rebuildAt v).setRebuild (some { b with last := some v })).Rebuilding := by
  obtain ⟨post, he⟩ := hf.forest_of_rebuildNext hm hb hv
  have hvf : v ∈ s.forest := by
    rw [he]
    exact List.mem_append_right _ List.mem_cons_self
  obtain ⟨x, hx⟩ := Option.ne_none_iff_exists'.1 (hf.mem_forest.1 hvf)
  have unvisited : v ∉ s.visited := hf.not_mem_before he
  have behind {d : Nat} (hd : d ∈ s.visited) : v ∉ s.ancestorsOf d := by
    have order := hf.forest_pairwise
    rw [he, List.pairwise_append] at order
    exact order.2.2 d hd v List.mem_cons_self
  have uncounted : s.count v = 0 := by
    rw [State.count, List.length_eq_zero_iff, List.filter_eq_nil_iff]
    exact fun d hd hcv => behind hd (hc.above d hd v (State.countedBy_absorber hcv))
  obtain ⟨steady, tally⟩ := h.rebuildAt_tally hcrowd hm hc.tally hr hx uncounted
  obtain ⟨u, hu, -, hserved⟩ := h.rebuildAt_names hx
  have hy := State.asset?_setAbsorber hx (s.highestHolder v)
  generalize ht : (s.rebuildAt v).setRebuild (some { b with last := some v }) = t
  have tree : t.tree = s.tree := by
    rw [← ht]
    exact steady.tree.trans (s.tree_adjustAsset v (f := fun x => { x with absorbedBy := s.highestHolder v }) fun _ => rfl)
  have hft : t.Forest := hf.of_tree tree
  have forest : t.forest = s.visited ++ v :: post := (State.forest_of_tree tree).trans he
  have mode : t.mode = .entering := by
    rw [← ht]
    exact steady.mode.trans hm
  have vis : t.visited = s.visited ++ [v] := hft.visited_rebuilt forest mode ⟨b.owed, by rw [← ht]; rfl⟩
  have self : (t.asset? v).map Asset.counting = some (x.health, s.highestHolder v) := by
    rw [← ht]
    exact (steady.counting v).trans (by rw [hy]; rfl)
  have others {d : Nat} (hd : d ≠ v) : (t.asset? d).map Asset.counting = (s.asset? d).map Asset.counting := by
    rw [← ht]
    refine (steady.counting d).trans ?_
    rw [State.setAbsorber, State.asset?_adjustAsset_of_ne hd]
  have named : t.absorbedByOf v = s.highestHolder v := by
    obtain ⟨y, hy', hcount⟩ := Option.map_eq_some_iff.1 self
    rw [(State.reads_of_asset? hy').1]
    exact congrArg Prod.snd hcount
  have old {d : Nat} (hd : d ∈ s.visited) : t.absorbedByOf d = s.absorbedByOf d :=
    absorbedByOf_of_counting (others fun he => unvisited (he ▸ hd))
  have counts (c : Nat) : t.count c = s.count c + Asset.countsFor { x with absorbedBy := s.highestHolder v } c := by
    have moved := State.count_move (hr.visited_nodup hf hm)
      (t := t) (by rw [vis, List.nodup_append]; exact ⟨hr.visited_nodup hf hm, List.nodup_singleton v, fun a ha c hc' hac =>
        unvisited (List.mem_singleton.1 hc' ▸ hac ▸ ha)⟩) c v fun e hne => by
        rw [countedBy_of_counting (others hne), vis, List.mem_append, List.mem_singleton, or_iff_left hne]
    have now : t.countedBy c v = true ↔ x.health ≠ .healthy ∧ s.highestHolder v = some c := by
      obtain ⟨y, hy', hcount⟩ := Option.map_eq_some_iff.1 self
      simp only [Asset.counting, Prod.mk.injEq] at hcount
      rw [State.countedBy_eq hy', hcount.1, hcount.2]
    rw [if_neg fun hn => unvisited hn.1] at moved
    simp only [vis, List.mem_append, List.mem_singleton, or_true, true_and, now] at moved
    exact moved
  have holds {z : Nat} (hzv : z ≠ v) (hz : s.faultIdOf z ≠ none) : t.faultIdOf z ≠ none := by
    rw [← ht]
    exact hserved.holds_mono (by rw [hu.holds z hzv]; exact hz)
  refine ⟨⟨fun d hd z hz => ?_, ?_⟩, ⟨fun b' hb' v' hv' => ?_, fun d hd z hz => ?_⟩⟩
  · rw [State.ancestorsOf_of_tree tree]
    rw [vis] at hd
    rcases List.mem_append.1 hd with hd | hd
    · exact hc.above d hd z (old hd ▸ hz)
    · obtain rfl := List.mem_singleton.1 hd
      exact State.highestHolder_mem (named.symm.trans hz)
  · refine State.Tallied.congr (f := fun c => s.count c + Asset.countsFor { x with absorbedBy := s.highestHolder v } c) ?_
      fun _ r _ => (counts r.asset).symm
    rw [← ht]
    exact tally.of_records rfl
  · have hlast : t.rebuild = some { b with last := some v } := by rw [← ht]; rfl
    obtain rfl := Option.some.inj (hlast.symm.trans hb')
    obtain rfl := Option.some.inj (hv' : some v = some v')
    rw [forest]
    exact List.mem_append_right _ List.mem_cons_self
  · rw [vis] at hd
    rcases List.mem_append.1 hd with hd | hd
    · have hzs : z ∈ s.absorbedByOf d := old hd ▸ hz
      exact holds (fun he => behind hd (he ▸ hc.above d hd z hzs)) (hr.holds d hd z hzs)
    · obtain rfl := List.mem_singleton.1 hd
      have hzh : s.highestHolder d = some z := named.symm.trans hz
      have below := State.highestHolder_mem hzh
      exact holds (by rintro rfl; exact hf.irrefl z below) (State.highestHolder_holds hzh)

end Sys2Proof.Machine
end

section
/-! PROOFS. The count law, event by event (O22). -/

namespace Sys2Proof.Machine

/-! ## The law in its parts -/

theorem State.tallied_iff {s : State} (hw : s.records.wf = true) {f : Nat → Nat} :
    s.Tallied f ↔ ∀ e ∈ s.records, e.2.absorbed = f e.2.asset :=
  ⟨fun h e he => h e.1 e.2 (Table.get?_of_mem hw he), fun h _ _ hr => h _ (Table.mem_of_get? hr)⟩

theorem State.CountLaw.counted {s : State} (h : s.CountLaw) (hw : s.records.wf = true) (hm : s.mode ≠ .maintain) : s.Counted :=
  ⟨h.1, (State.tallied_iff hw).2 (h.2.1 hm)⟩

theorem State.CountLaw.rebuilding {s : State} (h : s.CountLaw) (hm : s.mode = .entering) : s.Rebuilding :=
  ⟨(h.2.2.2 hm).1, (h.2.2.2 hm).2⟩

theorem State.CountLaw.of_maintain {s : State} (hm : s.mode = .maintain)
    (hn : ∀ id r, s.records.get? id = some r → r.absorbed < Config.assetCapacity) (hw : s.records.wf = true) : s.CountLaw := by
  refine ⟨fun d hd => ?_, fun hne => absurd hm hne, fun e he => hn _ _ (Table.get?_of_mem hw he), fun he => ?_⟩
  · rw [State.visited_of_maintain hm] at hd
    cases hd
  · rw [hm] at he
    cases he

section
variable {s : State} (hf : s.Forest) (hb : s.Balanced) (hr : s.Ranged)
include hb hr

/-- The bound of n follows from the count. -/
theorem State.Counted.bounded (h : s.Counted) (hn : s.visited.Nodup) (hp : ∀ d ∈ s.visited, s.asset? d ≠ none) :
    ∀ e ∈ s.records, e.2.absorbed < Config.assetCapacity := by
  intro e he
  have hget := Table.get?_of_mem hb.canonical.2.2.2 he
  rw [h.tally _ _ hget]
  refine hb.count_lt hn (fun d hd => ?_) hget ?_
  · obtain ⟨x, hx⟩ := Option.ne_none_iff_exists'.1 (hp d hd)
    exact (hr.assets _ (Table.mem_of_get? hx)).1
  · obtain ⟨-, -, hrec⟩ := hr.records e he
    exact hrec.1

include hf

theorem State.Counted.law_of_run (h : s.Counted) (hm : s.mode = .run) : s.CountLaw := by
  refine ⟨h.above, fun _ => (State.tallied_iff hb.canonical.2.2.2).1 h.tally, ?_, fun he => ?_⟩
  · exact h.bounded hb hr (State.visited_nodup_of_run hf hm) fun d hd => (State.mem_visited_of_run hf hm).1 hd
  · rw [hm] at he
    cases he

theorem State.Counted.law_of_entering (h : s.Counted) (hm : s.mode = .entering) (hreb : s.Rebuilding) : s.CountLaw :=
  ⟨h.above, fun _ => (State.tallied_iff hb.canonical.2.2.2).1 h.tally,
    h.bounded hb hr (hreb.visited_nodup hf hm) (fun _ hd => hreb.present hf hm hd), fun _ => ⟨hreb.last, hreb.holds⟩⟩

end

/-! ## Assets created and erased in RUN -/

section
variable {s : State} (hc : s.Counted) (hf : s.Forest) (hm : s.mode = .run)
include hc hf hm

theorem State.Counted.createAsset {a : Nat} {config : AssetConfig} (hx : s.asset? a = none)
    (hp : s.parentPresent config.parent = true) (ht : (s.putAsset a (s.newAsset config)).Forest) :
    (s.putAsset a (s.newAsset config)).Counted := by
  generalize htt : s.putAsset a (s.newAsset config) = t at ht ⊢
  have asset (b : Nat) : t.asset? b = if b = a then some (s.newAsset config) else s.asset? b := htt ▸ s.asset?_putAsset a _ b
  have others {b : Nat} (hb : b ≠ a) : t.asset? b = s.asset? b := by rw [asset, if_neg hb]
  have self : t.asset? a = some (s.newAsset config) := by rw [asset, if_pos rfl]
  have mode : t.mode = .run := by rw [← htt]; exact hm
  have apart {d : Nat} (hd : s.asset? d ≠ none) : d ≠ a := by
    rintro rfl
    exact hd hx
  have hanc {d : Nat} (hd : s.asset? d ≠ none) : t.ancestorsOf d = s.ancestorsOf d :=
    State.ancestorsOf_of_parents hf ht (P := fun d => s.asset? d ≠ none)
      (fun d hd => by rw [State.parentOf, others (apart hd), State.parentOf]) (fun d p _ hp => hf.present hp) hd
  have above {d : Nat} (hd : s.asset? d ≠ none) : ∀ z ∈ s.absorbedByOf d, z ∈ s.ancestorsOf d :=
    hc.above d ((State.mem_visited_of_run hf hm).2 hd)
  refine ⟨fun d hd z hz => ?_, fun id r hr => ?_⟩
  · by_cases hda : d = a
    · subst hda
      rw [(State.reads_of_asset? self).1] at hz
      have hz : z ∈ s.inheritedAbsorber config.parent := by
        have inherited : (s.newAsset config).absorbedBy = s.inheritedAbsorber config.parent := if_pos hm
        rw [← inherited]
        exact hz
      have parent : t.parentOf d = config.parent := by rw [State.parentOf, self]; rfl
      cases hpar : config.parent with
      | none =>
        rw [hpar] at hz
        cases hz
      | some p =>
        rw [hpar] at hz parent hp
        have hps : s.asset? p ≠ none := Option.isSome_iff_ne_none.1 hp
        rw [ht.mem_ancestorsOf_parent parent, hanc hps]
        rw [State.inheritedAbsorber] at hz
        cases hab : s.absorbedByOf p with
        | some y =>
          rw [hab] at hz
          cases hz
          exact .inr (above hps z hab)
        | none =>
          rw [hab] at hz
          dsimp only at hz
          split at hz
          · cases hz
            exact .inl rfl
          · cases hz
    · have present := (State.mem_visited_of_run ht mode).1 hd
      rw [others hda] at present
      rw [hanc present]
      exact above present z (State.absorbedByOf_congr (others hda) ▸ hz)
  · have same : t.count r.asset = s.count r.asset := by
      refine State.count_congr (State.visited_nodup_of_run hf hm) (State.visited_nodup_of_run ht mode) _ fun e => ?_
      rw [State.mem_visited_of_run hf hm, State.mem_visited_of_run ht mode, State.countedBy_iff, State.countedBy_iff]
      by_cases hea : e = a
      · subst hea
        rw [self, hx]
        simp [State.newAsset]
      · rw [others hea]
    rw [same]
    exact hc.tally id r (by rw [← htt] at hr; exact hr)

theorem State.Counted.eraseAsset {a : Nat} {x : Asset} (hx : s.asset? a = some x) (hh : x.health = .healthy)
    (hchild : s.hasChild a = false) (ht : (s.setAssets (s.assets.del a)).Forest) : (s.setAssets (s.assets.del a)).Counted := by
  generalize htt : s.setAssets (s.assets.del a) = t at ht ⊢
  have asset (b : Nat) : t.asset? b = if b = a then none else s.asset? b := htt ▸ s.asset?_eraseAsset a b
  have others {b : Nat} (hb : b ≠ a) : t.asset? b = s.asset? b := by rw [asset, if_neg hb]
  have mode : t.mode = .run := by rw [← htt]; exact hm
  have hanc {d : Nat} (hd : d ≠ a) : t.ancestorsOf d = s.ancestorsOf d := by
    refine State.ancestorsOf_of_parents hf ht (P := fun d => d ≠ a)
      (fun d hd => by rw [State.parentOf, others hd, State.parentOf]) (fun d p _ hp => ?_) hd
    rintro rfl
    rw [(State.hasChild_iff hf.wf).2 ⟨d, hp⟩] at hchild
    cases hchild
  have rest {d : Nat} (hd : d ∈ t.visited) : d ≠ a := fun he =>
    (State.mem_visited_of_run ht mode).1 hd (by rw [asset, if_pos he])
  refine ⟨fun d hd z hz => ?_, fun id r hr => ?_⟩
  · have present := (State.mem_visited_of_run ht mode).1 hd
    rw [others (rest hd)] at present
    rw [hanc (rest hd)]
    exact hc.above d ((State.mem_visited_of_run hf hm).2 present) z (State.absorbedByOf_congr (others (rest hd)) ▸ hz)
  · have same : t.count r.asset = s.count r.asset := by
      refine State.count_congr (State.visited_nodup_of_run hf hm) (State.visited_nodup_of_run ht mode) _ fun e => ?_
      rw [State.mem_visited_of_run hf hm, State.mem_visited_of_run ht mode, State.countedBy_iff, State.countedBy_iff]
      by_cases hea : e = a
      · subst hea
        rw [asset, if_pos rfl, hx]
        simp [hh]
      · rw [others hea]
    rw [same]
    exact hc.tally id r (by rw [← htt] at hr; exact hr)

end

/-! ## Events -/

theorem State.Alike.steady {s t : State} (h : s.Alike t) (htree : t.tree = s.tree) (hm : t.mode = s.mode)
    (hb : t.rebuild = s.rebuild) : s.Steady t := by
  refine ⟨htree, fun d => ?_, hm, hb⟩
  have hd := h.standing d
  cases hx : s.asset? d <;> cases hy : t.asset? d <;> simp_all [Asset.standing, Asset.counting]

theorem State.Sampled.mode {s t : State} (h : s.Sampled t) : t.mode = s.mode := by
  rcases h with h | ⟨u, a, hu, h⟩
  · exact h.mode
  · exact h.mode.trans (Prod.mk.inj (Prod.mk.inj hu.walking).2).1

theorem State.Names.mode {s t : State} {d : Nat} {z : Option Nat} (h : s.Names t d z) : t.mode = s.mode :=
  (Prod.mk.inj (Prod.mk.inj (State.walking_of_correlation h.correlation)).2).1

section
variable {s t : State} (hc : s.Canonical) (hft : t.Forest) (hlt : t.FaultLaw)
  (hct : t.Canonical) (hr : t.Ranged) (h : s.CountLaw)
include hft hlt hct hr h hc

/-- The law of states that differ in nothing it reads. -/
theorem State.CountLaw.quiet (hst : s.Steady t) (hlinks : ∀ id, (t.records.get? id).map FaultRecord.link
    = (s.records.get? id).map FaultRecord.link) (hn : s.SameCounts t) (hholds : ∀ b, t.faultIdOf b = s.faultIdOf b) :
    t.CountLaw := by
  have balanced := hlt.balanced hct
  cases hm : s.mode with
  | maintain =>
    refine .of_maintain (hst.mode.trans hm) (fun id r hr => ?_) hct.2.2.2
    have hn := hn id
    rw [hr, Option.map_some, eq_comm, Option.map_eq_some_iff] at hn
    obtain ⟨r', hr', he⟩ := hn
    rw [← he]
    exact h.2.2.1 _ (Table.mem_of_get? hr')
  | run =>
    have counted := h.counted hc.2.2.2 (by rw [hm]; exact nofun)
    exact (counted.of_steady hst (counted.tally.of_counts hlinks hn)).law_of_run hft balanced hr (hst.mode.trans hm)
  | entering =>
    have counted := h.counted hc.2.2.2 (by rw [hm]; exact nofun)
    have reb := h.rebuilding hm
    refine (counted.of_steady hst (counted.tally.of_counts hlinks hn)).law_of_entering hft balanced hr (hst.mode.trans hm) ?_
    refine ⟨fun b hb v hv => ?_, fun d hd z hz => ?_⟩
    · rw [State.forest_of_tree hst.tree]
      exact reb.last b (hst.rebuild ▸ hb) v hv
    · rw [hholds]
      exact reb.holds d (hst.visited ▸ hd) z (absorbedByOf_of_counting (hst.counting d) ▸ hz)

end

theorem State.beginWalk_steady (s : State) : s.Steady s.beginWalk := by
  unfold State.beginWalk
  split
  · exact .of_assets rfl rfl rfl
  · exact .refl s

theorem Event.countLaw {s t : State} (he : Event s t) (hc : s.Canonical) (hf : s.Forest) (hft : t.Forest)
    (hl : s.FaultLaw) (hct : t.Canonical) (hlt : t.FaultLaw) (hr : t.Ranged) (h : s.CountLaw) : t.CountLaw := by
  have balanced := hl.balanced hc
  have balancedT := hlt.balanced hct
  have run (hm : s.mode = .run) : s.Counted := h.counted hc.2.2.2 (by rw [hm]; exact nofun)
  have kept (hst : s.Steady t) (hb : t.books = s.books) : t.CountLaw :=
    h.quiet hc hft hlt hct hr hst (State.Alike.of_books hb).links (.of_books hb) (State.Alike.of_books hb).holds
  cases he with
  | quiet ha hn htree hcor =>
    simp only [State.correlation, Prod.mk.injEq] at hcor
    exact h.quiet hc hft hlt hct hr (ha.steady htree hcor.2.2.1 hcor.2.2.2) ha.links hn ha.holds
  | maintained ha hn hm =>
    refine .of_maintain hm (fun id r hr => ?_) hct.2.2.2
    have hn := hn id
    rw [hr, Option.map_some, eq_comm, Option.map_eq_some_iff] at hn
    obtain ⟨r', hr', he⟩ := hn
    rw [← he]
    exact h.2.2.1 _ (Table.mem_of_get? hr')
  | entering ha hn htree hm hb =>
    obtain ⟨owed, hb⟩ := hb
    have vis : t.visited = [] := by simp [State.visited, hm, hb]
    refine State.Counted.law_of_entering hft balancedT hr ⟨fun d hd => ?_, fun id r hr => ?_⟩ hm
      ⟨fun b' hb' v hv => ?_, fun d hd => ?_⟩
    · rw [vis] at hd
      cases hd
    · rw [hn id r hr, State.count, vis]
      rfl
    · obtain rfl := Option.some.inj (hb.symm.trans hb')
      cases hv
    · rw [vis] at hd
      cases hd
  | entered ha hn htree hm hb hv hcor =>
    simp only [State.correlation, Prod.mk.injEq] at hcor
    obtain ⟨-, -, mode, -⟩ := hcor
    have counted := h.counted hc.2.2.2 (by rw [hm]; exact nofun)
    have reb := h.rebuilding hm
    have vis (d : Nat) : d ∈ t.visited ↔ d ∈ s.visited := by
      rw [State.mem_visited_of_run hft mode, State.present_of_tree htree]
      exact ⟨hf.visited_of_rebuildNext_none hm hb hv, reb.present hf hm⟩
    have counting (d : Nat) : (t.asset? d).map Asset.counting = (s.asset? d).map Asset.counting := by
      have hd := ha.standing d
      cases hx : s.asset? d <;> cases hy : t.asset? d <;> simp_all [Asset.standing, Asset.counting]
    refine State.Counted.law_of_run hft balancedT hr ⟨fun d hd z hz => ?_, ?_⟩ mode
    · rw [State.ancestorsOf_of_tree htree]
      exact counted.above d ((vis d).1 hd) z (ha.absorber d ▸ hz)
    · refine (counted.tally.of_counts ha.links hn).congr fun _ r _ => ?_
      refine (State.count_congr (reb.visited_nodup hf hm) (State.visited_nodup_of_run hft mode) _ fun e => ?_).symm
      rw [vis, countedBy_of_counting (counting e)]
  | @created a config ha hx hm hp hcf =>
    cases hmode : s.mode with
    | maintain =>
      exact .of_maintain (s := s.putAsset _ _) hmode (fun id r hr => h.2.2.1 _ (Table.mem_of_get? (t := s.records) hr)) hct.2.2.2
    | entering => exact absurd hmode hm
    | run => exact ((run hmode).createAsset hf hmode hx hp hft).law_of_run hft balancedT hr hmode
  | erased hx hm he =>
    obtain ⟨hchild, hid, -, hrun⟩ := State.eraseConflict_eq_false he
    cases hmode : s.mode with
    | maintain =>
      exact .of_maintain (s := s.setAssets _) hmode (fun id r hr => h.2.2.1 _ (Table.mem_of_get? (t := s.records) hr)) hct.2.2.2
    | entering => exact absurd hmode hm
    | run => exact ((run hmode).eraseAsset hf hmode hx (hrun hmode).1 hchild hft).law_of_run hft balancedT hr hmode
  | sample a hm =>
    exact ((run hm).sample hf hm balanced a).law_of_run hft balancedT hr ((balanced.sample_sampled a).mode.trans hm)
  | close hm hrec =>
    exact ((run hm).close hf hm balanced hrec).law_of_run hft balancedT hr ((balanced.close_sampled hrec).mode.trans hm)
  | beginWalk =>
    refine kept (State.beginWalk_steady s) ?_
    unfold State.beginWalk
    split <;> rfl
  | absorbVisit =>
    obtain he | ⟨he, -⟩ | ⟨w, id, cursor, hm, hw, hk, hid, hroot, hn, he⟩ := s.absorbVisit_cases
    · rw [he] at *
      exact h
    · exact kept (by rw [he]; exact .of_assets rfl rfl rfl) (by rw [he]; rfl)
    · have below : w.root ∈ s.ancestorsOf (cursor.getLastD w.root) :=
        hf.mem_descendantsOf.1 (hf.remaining_subset (hf.mem_remaining_next hn rfl))
      obtain ⟨x, hx⟩ := Option.ne_none_iff_exists'.1 (State.asset?_ne_none_of_ancestor below)
      obtain ⟨u, hu, -, hserved⟩ := balanced.absorbAt_names hx w.root id
      have counted := (run hm).absorbAt hf hm balanced hx below id
      rw [he] at hft balancedT hr ⊢
      exact (State.Counted.of_steady (t := State.advanceWalk _ w cursor) counted (.of_assets rfl rfl rfl) (counted.tally.of_records rfl)).law_of_run hft balancedT hr
        (hserved.mode.trans (hu.mode.trans hm))
  | releaseVisit =>
    obtain he | ⟨he, -⟩ | ⟨w, cursor, hm, hw, hk, hroot, hn, he⟩ := s.releaseVisit_cases
    · rw [he] at *
      exact h
    · exact kept (by rw [he]; exact .of_assets rfl rfl rfl) (by rw [he]; rfl)
    · have below : w.root ∈ s.ancestorsOf (cursor.getLastD w.root) :=
        hf.mem_descendantsOf.1 (hf.remaining_subset (hf.mem_remaining_next hn rfl))
      obtain ⟨x, hx⟩ := Option.ne_none_iff_exists'.1 (State.asset?_ne_none_of_ancestor below)
      have counted := (run hm).releaseAt hf hm balanced hx hroot
      have mode : (s.releaseAt w.root (cursor.getLastD w.root)).mode = .run := by
        by_cases hrel : s.releases w.root x = true
        · obtain ⟨u, hu, hserved⟩ := balanced.releaseAt_names hx hrel
          exact hserved.mode.trans (hu.mode.trans hm)
        · rw [State.releaseAt_eq hx, if_neg hrel]
          exact hm
      rw [he] at hft balancedT hr ⊢
      exact (State.Counted.of_steady (t := State.advanceWalk _ w cursor) counted (.of_assets rfl rfl rfl) (counted.tally.of_records rfl)).law_of_run hft balancedT hr mode
  | rebuildVisit hm hb hv =>
    have counted := h.counted hc.2.2.2 (by rw [hm]; exact nofun)
    obtain ⟨hct', hreb⟩ := counted.rebuildVisit (h.rebuilding hm) hf balanced hl.crowded hm hb hv
    obtain ⟨post, forest⟩ := hf.forest_of_rebuildNext hm hb hv
    have present := hf.mem_forest.1 (forest ▸ List.mem_append_right _ List.mem_cons_self)
    obtain ⟨x, hx⟩ := Option.ne_none_iff_exists'.1 present
    obtain ⟨u, hu, -, hserved⟩ := balanced.rebuildAt_names hx
    exact hct'.law_of_entering hft balancedT hr (hserved.mode.trans (hu.mode.trans hm)) hreb
  | cleared hx hrec hw hn hm =>
    refine ⟨fun d _ z hz => ?_, fun _ e he => ?_, fun e he => ?_, fun he => absurd he hm⟩
    · obtain ⟨y, hy, hz⟩ := Option.bind_eq_some_iff.1 hz
      have hs := hx d y hy
      simp only [Asset.standing, Prod.mk.injEq] at hs
      rw [hs.2.1] at hz
      cases hz
    · rw [hrec] at he
      cases he
    · rw [hrec] at he
      cases he

theorem law_count : Law fun s => s.Canonical ∧ s.Ranged ∧ s.Forest ∧ s.FaultLaw ∧ s.CountLaw :=
  ⟨fun ht ⟨hc, hr, hf, hl, h⟩ => ⟨ht.canonical hc, ht.ranged hc hr, ht.forest hc hf,
      (ht.event hc).faultLaw hc (ht.canonical hc) hl,
      (ht.event hc).countLaw hc hf (ht.forest hc hf) hl (ht.canonical hc)
        ((ht.event hc).faultLaw hc (ht.canonical hc) hl) (ht.ranged hc hr) h⟩,
    fun q ⟨hc, hr, hf, hl, h⟩ => ⟨hc, { hr with }, hf.setPending q, hl,
      h.quiet hc (hf.setPending q) (t := _) hl hc { hr with } (.of_assets rfl rfl rfl) (fun _ => rfl) (fun _ => rfl)
        fun _ => rfl⟩⟩

/-- Settles O22: every event moves n and the assets it counts together. -/
theorem countLawKept : Obligations.CountLawKept := by
  intro s t hc hr htree hl h ht
  exact (law_count.step ⟨hc, (State.ranged_iff s).2 hr, htree.forest hc.1, hl, h⟩ ht).2.2.2.2

end Sys2Proof.Machine
end

section
/-! PROOFS. Commands and the queue of commands: what a step runs (O1), that every command answers a next state and leaves the
queue alone (O2), and what the part does not take (O3, O6). -/

namespace Sys2Proof.Machine

/-! ## The queue of commands -/

theorem FaultOps.pending {s t : State} (h : FaultOps s t) : t.pending = s.pending :=
  FaultOps.keep (P := fun u => u.pending = s.pending) (fun hop hp => Eq.trans (by cases hop <;> rfl) hp) h rfl

theorem State.lineTakes_pending (s : State) (k : Fin 4) (o : Nat) (x : Outstation) (ended : Option Transaction) :
    (s.lineTakes k o x ended).pending = s.pending := by
  unfold State.lineTakes
  dsimp only
  split <;> split <;> rfl

theorem State.absorbVisit_pending (s : State) : s.absorbVisit.pending = s.pending := by
  obtain he | ⟨he, -⟩ | ⟨w, id, cursor, -, -, -, -, hroot, -, he⟩ := s.absorbVisit_cases
  · rw [he]
  · rw [he]
    rfl
  · rw [he]
    have present := State.asset?_ne_none_of_faultIdOf (s := s) (a := w.root) (by rw [hroot]; exact nofun)
    exact (faultOps_absorbAt s id (cursor.getLastD w.root) present).pending

theorem State.releaseVisit_pending (s : State) : s.releaseVisit.pending = s.pending := by
  obtain he | ⟨he, -⟩ | ⟨w, cursor, -, -, -, -, -, he⟩ := s.releaseVisit_cases
  · rw [he]
  · rw [he]
    rfl
  · rw [he]
    exact (faultOps_releaseAt s w.root (cursor.getLastD w.root)).pending

theorem State.storeAsset_pending (s : State) (a : Nat) (config : AssetConfig) :
    (s.storeAsset a config).pending = s.pending := by
  unfold State.storeAsset
  split
  · rfl
  · dsimp only
    split
    · exact (faultOps_refreshOn _ a).pending
    · rfl

theorem State.haltLine_pending (s : State) (k : Fin 4) : (s.haltLine k).pending = s.pending := by
  obtain ⟨he, -⟩ | ⟨x, u, he, -, -⟩ := s.haltLine_eq k <;> rw [he]
  rfl

theorem State.endStorm_pending (s : State) : s.endStorm.pending = s.pending := by
  unfold State.endStorm
  dsimp only
  split <;> rfl

theorem Move.pending {s t : State} (h : Move s t) : t.pending = s.pending := by
  cases h
  case lineSecond k =>
    unfold State.lineSecond
    split <;> rfl
  case hear k o x hx ho => exact s.lineTakes_pending k o x _
  case storeAsset a config _ _ _ _ _ _ => exact s.storeAsset_pending a config
  case sample a _ => exact (faultOps_sample s a).pending
  case escalate =>
    unfold State.escalateAll
    split <;> rfl
  case close id r _ _ => exact (faultOps_close s id r.asset).pending
  case beginWalk =>
    unfold State.beginWalk
    split <;> rfl
  case absorbVisit => exact s.absorbVisit_pending
  case releaseVisit => exact s.releaseVisit_pending
  case rebuildVisit b v _ _ _ => exact (faultOps_rebuildAt s v).pending
  case leaveRun => simp only [State.endStorm_pending, State.haltLine_pending, State.setMode_pending]
  case restartRuntime => exact State.notify_pending _ _
  case restartFull => exact State.notify_pending _ _
  all_goals rfl

theorem Moves.pending {s t : State} (h : Moves s t) : t.pending = s.pending := by
  induction h with
  | refl => rfl
  | tail _ hm ih => exact hm.pending.trans ih

theorem exec_next (c : Instr) (s : State) : ∃ t, exec c s = .next t := by
  cases c <;> exact ⟨_, rfl⟩

/-- Settles O2: every command is a run of moves, and no move touches the queue. -/
theorem everyCommandAnswersNext : Obligations.EveryCommandAnswersNext := by
  intro c s
  obtain ⟨t, ht⟩ := exec_next c s
  exact ⟨t, ht, (exec_moves c s t ht).pending⟩

/-- Settles O1. -/
theorem stepTakesFrontCommand : Obligations.StepTakesFrontCommand :=
  ⟨fun _ _ _ h => step_cons h, fun _ h => step_nil h⟩

/-! ## Commands that trunk frames bear -/

theorem plainFrame_eq {kind addr : Byte} {req : Request} {d : Directive} (h : plainFrame kind addr req = some d) :
    d.addr = addr ∧ d.kind = kind := by
  cases req <;> cases h <;> exact ⟨rfl, rfl⟩

theorem codedFrame_eq {kind code addr : Byte} {req : CodedRequest} {d : Directive}
    (h : codedFrame kind code addr req = some d) : d.addr = addr ∧ d.kind = kind := by
  cases req <;> cases h <;> exact ⟨rfl, rfl⟩

theorem statusFrame_eq {option addr : Byte} {req : StatusRequest} {d : Directive}
    (h : statusFrame option addr req = some d) : d.addr = addr ∧ d.kind = 0x2E := by
  cases req <;> cases h <;> exact ⟨rfl, rfl⟩

theorem tableEdit_directive (addr : Byte) (req : CodedRequest) (s : State) (edit : List Byte → State → Except ReplyCode State) :
    ∃ tag f, tableEdit addr req s edit = directive addr tag s f := ⟨_, _, rfl⟩

theorem tableRead_directive (addr : Byte) (req : CodedRequest) (s : State)
    (read : List Byte → State → Except ReplyCode (List Byte)) : ∃ tag f, tableRead addr req s read = directive addr tag s f :=
  ⟨_, _, rfl⟩

/-- A command with a trunk frame is served on the part's own addresses, and on the group address only where its kind is
taken there (R183). -/
theorem exec_of_frame {c : Instr} {d : Directive} (h : frameOf c = some d) (s : State) :
    (∃ tag f, exec c s = directive d.addr tag s f)
      ∨ d.kind ∈ groupKinds ∧ ∃ tag f, exec c s = groupDirective d.addr tag s f := by
  cases c
  case partLoad | lineLoad | outstationLoad | assetLoad | pointLoad | faultProfileLoad | loopProfileLoad | stormLoad
      | beaconLoad | partErase | lineErase | outstationErase | assetErase | pointErase | faultProfileErase | loopProfileErase
      | stormErase | beaconErase =>
    obtain ⟨ha, -⟩ := codedFrame_eq h
    rw [ha]
    exact .inl (tableEdit_directive _ _ _ _)
  case partRead | lineRead | outstationRead | assetRead | pointRead | faultProfileRead | loopProfileRead | stormRead
      | beaconRead | faultById | faultByAsset =>
    obtain ⟨ha, -⟩ := codedFrame_eq h
    rw [ha]
    exact .inl (tableRead_directive _ _ _ _)
  case list | ack | close | downlink | resync | beaconReset | unknownKind =>
    obtain ⟨ha, -⟩ := plainFrame_eq h
    rw [ha]
    delta exec
    exact .inl ⟨_, _, rfl⟩
  case status | statusClear =>
    obtain ⟨ha, -⟩ := statusFrame_eq h
    rw [ha]
    delta exec
    exact .inl ⟨_, _, rfl⟩
  case time =>
    obtain ⟨ha, hk⟩ := plainFrame_eq h
    rw [ha, hk]
    delta exec
    exact .inr ⟨by decide, _, _, rfl⟩
  case modeRun | modeMaintain | restartRuntime | restartFull =>
    obtain ⟨ha, hk⟩ := codedFrame_eq h
    rw [ha, hk]
    delta exec
    exact .inr ⟨by decide, _, _, rfl⟩
  all_goals cases h

theorem exec_held {c : Instr} {s : State} (h : s.resetHeld = true) (hp : c ≠ .powerOn) (hr : c ≠ .resetInputActive) :
    exec c s = .next s := by
  have shape : ∃ t, exec c s = .next (if s.resetHeld = true then s else t) := by
    cases c
    case powerOn => exact absurd rfl hp
    case resetInputActive => exact absurd rfl hr
    all_goals
      delta exec
      exact ⟨_, rfl⟩
  obtain ⟨t, he⟩ := shape
  rw [he, if_pos h]

/-- Settles O3. -/
theorem commandsNotForThePart : Obligations.CommandsNotForThePart := by
  refine fun s => ⟨fun c h hp hr => exec_held h hp hr, rfl, fun c d hd ha hg => ?_, fun addr kind => ?_,
    fun addr kind req ht => ?_⟩
  · obtain ⟨tag, f, he⟩ | ⟨hk, tag, f, he⟩ := exec_of_frame hd s <;> rw [he]
    · exact directive_foreign ha tag f
    · exact groupDirective_foreign ha (fun heq => hg heq hk) tag f
  · change unlessHeld s (fun s => s) = _
    rw [unlessHeld, ite_self]
  · delta exec execUnknownKind
    exact directive_own ht.1 ht.2 _ _

/-! ## Refusals before the owner reads a field -/

theorem CodedRequest.fields?_of_unnamed {req : CodedRequest} (h : req.named = false) : req.fields? = none := by
  cases req with
  | coded => cases h
  | empty | codeMissing | codeUnknown => rfl

theorem StatusRequest.hasOption_of_unnamed {req : StatusRequest} (h : req.named = false) : req.hasOption = false := by
  cases req with
  | given => cases h
  | empty | optionMissing => rfl

section
variable {s : State} {addr : Byte} {req : CodedRequest}

theorem tableEdit_refused (h : s.Takes addr) (edit : List Byte → State → Except ReplyCode State) :
    (s.mode = .entering → tableEdit addr req s edit = .next (s.reply ⟨addr, req.tag⟩ .busy []))
      ∧ (s.mode ≠ .entering → req.named = false →
        tableEdit addr req s edit = .next (s.reply ⟨addr, req.tag⟩ .badEntry [])) :=
  ⟨fun hm => tableEdit_busy h.1 h.2 hm req edit,
    fun hm hn => tableEdit_unnamed h.1 h.2 hm (CodedRequest.fields?_of_unnamed hn) edit⟩

theorem tableRead_refused (h : s.Takes addr) (hn : req.named = false)
    (read : List Byte → State → Except ReplyCode (List Byte)) :
    tableRead addr req s read = .next (s.reply ⟨addr, req.tag⟩ .badEntry []) :=
  tableRead_unnamed h.1 h.2 (CodedRequest.fields?_of_unnamed hn) read

theorem mode_refused (h : s.Takes addr) :
    (s.mode = .entering → ∀ c ∈ [Instr.modeRun addr req, .modeMaintain addr req],
        exec c s = .next (s.reply ⟨addr, req.tag⟩ .busy []))
      ∧ (s.mode ≠ .entering → req.named = false → ∀ c ∈ [Instr.modeRun addr req, .modeMaintain addr req],
        exec c s = .next (s.reply ⟨addr, req.tag⟩ .badEntry [])) := by
  simp only [List.forall_mem_cons, List.not_mem_nil, false_imp_iff, implies_true, and_true]
  delta exec execModeRun execModeMaintain
  simp only [groupDirective_own h.1 h.2]
  refine ⟨fun hm => ?_, fun hm hn => ?_⟩
  · simp [hm]
  · cases hmode : s.mode <;> simp_all [CodedRequest.fields?_of_unnamed hn]

theorem restart_refused (h : s.Takes addr) (hn : req.named = false) :
    ∀ c ∈ [Instr.restartRuntime addr req, .restartFull addr req],
      exec c s = .next (s.reply ⟨addr, req.tag⟩ .badEntry []) := by
  simp only [List.forall_mem_cons, List.not_mem_nil, false_imp_iff, implies_true, and_true]
  delta exec execRestartRuntime execRestartFull
  simp only [groupDirective_own h.1 h.2, CodedRequest.fields?_of_unnamed hn, State.replyIfOwed_some, and_self]

/-- On the group address a refusal has no effect and gets no reply (R183). -/
theorem group_refused (h : s.resetHeld = false) (ha : s.isOwn groupAddress = false) :
    (s.mode = .entering ∨ req.named = false → exec (.modeRun groupAddress req) s = .next s
        ∧ exec (.modeMaintain groupAddress req) s = .next s)
      ∧ (req.named = false → exec (.restartRuntime groupAddress req) s = .next s
        ∧ exec (.restartFull groupAddress req) s = .next s) := by
  delta exec execModeRun execModeMaintain execRestartRuntime execRestartFull
  simp only [groupDirective_group h ha]
  refine ⟨?_, fun hn => by simp [CodedRequest.fields?_of_unnamed hn]⟩
  rintro (hm | hn)
  · simp [hm]
  · cases hmode : s.mode <;> simp [CodedRequest.fields?_of_unnamed hn]

theorem directive_busy (h : s.Takes addr) (hm : s.mode = .entering) {plain : Request} :
    ∀ c ∈ [Instr.ack addr plain, .close addr plain, .downlink addr plain, .resync addr plain],
      exec c s = .next (s.reply ⟨addr, plain.tag⟩ .busy []) := by
  simp only [List.forall_mem_cons, List.not_mem_nil, false_imp_iff, implies_true, and_true]
  delta exec execAck execClose execDownlink execResync
  simp [directive_own h.1 h.2, ackFault, closeFault, downlink, resync, hm]

theorem status_refused (h : s.Takes addr) {opt : StatusRequest} (hn : opt.named = false) :
    ∀ c ∈ [Instr.status addr opt, .statusClear addr opt], exec c s = .next (s.reply ⟨addr, opt.tag⟩ .badEntry []) := by
  simp only [List.forall_mem_cons, List.not_mem_nil, false_imp_iff, implies_true, and_true]
  delta exec execStatus execStatusClear
  simp [directive_own h.1 h.2, StatusRequest.hasOption_of_unnamed hn]

end

/-- Settles O6. -/
theorem earlyRefusals : Obligations.EarlyRefusals := by
  refine ⟨fun s req h ha => group_refused h ha, fun s addr req plain opt h => ⟨?_, fun hm => directive_busy h hm, fun hn => ?_,
    fun hn => status_refused h hn⟩⟩
  · have modes := mode_refused h (req := req)
    simp only [List.forall_mem_cons, List.not_mem_nil, false_imp_iff, implies_true, and_true] at modes ⊢
    obtain ⟨busy, unnamed⟩ := modes
    refine ⟨?_, ?_, ?_, ?_, ?_, ?_, ?_, ?_, ?_, ?_, ?_, ?_, ?_, ?_, ?_, ?_, ?_, ?_,
      ⟨fun hm => (busy hm).1, fun hm hn => (unnamed hm hn).1⟩, ⟨fun hm => (busy hm).2, fun hm hn => (unnamed hm hn).2⟩⟩
    all_goals exact tableEdit_refused h _
  · have restarts := restart_refused h hn
    simp only [List.forall_mem_cons, List.not_mem_nil, false_imp_iff, implies_true, and_true] at restarts ⊢
    refine ⟨?_, ?_, ?_, ?_, ?_, ?_, ?_, ?_, ?_, ?_, ?_, restarts⟩
    all_goals exact tableRead_refused h hn _

end Sys2Proof.Machine
end

section
/-! PROOFS. The keys of tables and the fields behind them, byte by byte (R184, R197); PART and STORM edits (O8). -/

namespace Sys2Proof.Machine

/-! ## Fields -/

@[simp] theorem byteAt_zero (b : Byte) (fs : List Byte) : byteAt (b :: fs) 0 = b.toNat := rfl

@[simp] theorem byteAt_succ (b : Byte) (fs : List Byte) (i : Nat) : byteAt (b :: fs) (i + 1) = byteAt fs i := rfl

@[simp] theorem wordAt_zero (hi lo : Byte) (fs : List Byte) : wordAt (hi :: lo :: fs) 0 = 256 * hi.toNat + lo.toNat := rfl

@[simp] theorem wordAt_succ (b : Byte) (fs : List Byte) (i : Nat) : wordAt (b :: fs) (i + 1) = wordAt fs i := rfl

/-! ## Keys -/

theorem keyByte_zero (fs : List Byte) : keyByte fs 0 0
    = if fs.length < 1 then .error .badEntry else if byteAt fs 0 ≠ 0 then .error .badIndex else .ok 0 := by
  unfold keyByte
  by_cases h : byteAt fs 0 = 0 <;> simp [h]

@[simp] theorem keyByte_nil (lo hi : Nat) : keyByte [] lo hi = .error .badEntry := rfl

theorem keyByte_cons (key : Byte) (fs : List Byte) (hi : Nat) : keyByte (key :: fs) 0 hi
    = if key.toNat ≤ hi then .ok key.toNat else .error .badIndex := by
  simp [keyByte, byteAt]

@[simp] theorem finKey_nil (n lo : Nat) : finKey n lo [] = .error .badEntry := rfl

theorem finKey_of_short {n lo : Nat} {fs : List Byte} (h : fs.length < 1) : finKey n lo fs = .error .badEntry := if_pos h

theorem finKey_of_out {n lo : Nat} {fs : List Byte} (hl : 1 ≤ fs.length) (h : ¬(lo ≤ byteAt fs 0 ∧ byteAt fs 0 - lo < n)) :
    finKey n lo fs = .error .badIndex := by
  rw [finKey, if_neg (by omega), dif_neg h]

theorem finKey_of_eq {n lo : Nat} {fs : List Byte} (hl : 1 ≤ fs.length) {k : Fin n} (h : byteAt fs 0 = k.val + lo) :
    finKey n lo fs = .ok k := by
  have hk := k.isLt
  rw [finKey, if_neg (by omega), dif_pos ⟨by omega, by omega⟩]
  exact congrArg Except.ok (Fin.ext (by simp only [h]; omega))

theorem finKey_cons_of_out {n lo : Nat} {key : Byte} (fs : List Byte) (h : ¬(lo ≤ key.toNat ∧ key.toNat - lo < n)) :
    finKey n lo (key :: fs) = .error .badIndex := finKey_of_out (by simp) h

theorem finKey_cons {n lo : Nat} {key : Byte} (fs : List Byte) (k : Fin n) (h : key.toNat = k.val + lo) :
    finKey n lo (key :: fs) = .ok k := finKey_of_eq (by simp) h

@[simp] theorem assetKey_nil : assetKey [] = .error .badEntry := rfl

@[simp] theorem assetKey_singleton (hi : Byte) : assetKey [hi] = .error .badEntry := rfl

theorem assetKey_cons (hi lo : Byte) (fs : List Byte) : assetKey (hi :: lo :: fs)
    = if 256 * hi.toNat + lo.toNat ≤ 2047 then .ok (256 * hi.toNat + lo.toNat) else .error .badIndex := by
  rw [assetKey, if_neg (by simp)]
  exact if_congr (by simp only [wordAt, byteAt, Config.assetCapacity]; exact Nat.lt_succ_iff) rfl rfl

@[simp] theorem pointKeyOf_nil : pointKeyOf [] = .error .badEntry := rfl

theorem pointKeyOf_of_out {o : Byte} (fs : List Byte) (h : 127 < o.toNat) : pointKeyOf (o :: fs) = .error .badIndex := by
  simp [pointKeyOf, h]

theorem pointKeyOf_of_short {o : Byte} {fs : List Byte} (h : o.toNat ≤ 127) (hl : fs.length < 2) :
    pointKeyOf (o :: fs) = .error .badEntry := by
  simp [pointKeyOf, Nat.not_lt.2 h, hl]

theorem pointKeyOf_cons {o : Byte} (hi lo : Byte) (fs : List Byte) (h : o.toNat ≤ 127) : pointKeyOf (o :: hi :: lo :: fs)
    = if 256 * hi.toNat + lo.toNat ≤ 1023 then .ok (1024 * o.toNat + (256 * hi.toNat + lo.toNat))
      else .error .badIndex := by
  simp only [pointKeyOf, List.length_cons, Nat.not_lt.2 h, byteAt_zero, wordAt_succ, wordAt_zero, pointKey, if_false]
  grind

/-! ## PART and STORM (R180, R159) -/

theorem partLoad_eq (fs : List Byte) (s : State) : partLoad fs s =
    if fs.length < 1 then .error .badEntry
    else if byteAt fs 0 ≠ 0 then .error .badIndex
    else if fs.length < 3 then .error .badEntry
    else if ¬(1 ≤ byteAt fs 1 ∧ byteAt fs 1 ≤ 253) then .error .badEntry
    else if byteAt fs 2 ≠ 0xFF ∧ ¬(1 ≤ byteAt fs 2 ∧ byteAt fs 2 ≤ 253) then .error .badEntry
    else if byteAt fs 2 = byteAt fs 1 then .error .conflict
    else if s.mode ≠ .maintain then .error .badMode
    else .ok (s.setTrunk { s.trunk with
      node := fs.getD 1 0, alternate := if byteAt fs 2 = 0xFF then none else some (fs.getD 2 0) }) := by
  rw [partLoad, keyByte_zero]
  grind

theorem partErase_eq (fs : List Byte) (s : State) : partErase fs s =
    if fs.length < 1 then .error .badEntry
    else if byteAt fs 0 ≠ 0 then .error .badIndex
    else if s.mode ≠ .maintain then .error .badMode
    else .ok (s.setTrunk { s.trunk with node := 1, alternate := none }) := by
  rw [partErase, keyByte_zero]
  grind

theorem stormLoad_eq (fs : List Byte) (s : State) : stormLoad fs s =
    if fs.length < 1 then .error .badEntry
    else if byteAt fs 0 ≠ 0 then .error .badIndex
    else if fs.length < 4 then .error .badEntry
    else if ¬(1 ≤ byteAt fs 3 ∧ byteAt fs 3 ≤ 60) then .error .badEntry
    else .ok (s.storeStormSettings (byteAt fs 1) (byteAt fs 2) (byteAt fs 3)) := by
  rw [stormLoad, keyByte_zero]
  grind

theorem stormErase_eq (fs : List Byte) (s : State) : stormErase fs s =
    if fs.length < 1 then .error .badEntry
    else if byteAt fs 0 ≠ 0 then .error .badIndex
    else .ok (s.storeStormSettings 0 0 10) := by
  rw [stormErase, keyByte_zero]
  grind [Storm.powerOn]

/-- Settles O8. -/
theorem partAndStormEdits : Obligations.PartAndStormEdits := by
  intro s addr tag fs h hm
  have edited (edit : List Byte → State → Except ReplyCode State) :
      tableEdit addr (.coded tag fs) s edit = .next (s.answer ⟨addr, tag⟩ (edit fs s)) := tableEdit_coded h.1 h.2 hm tag fs edit
  refine ⟨(edited partLoad).trans (congrArg _ ?_), (edited partErase).trans (congrArg _ ?_),
    (edited stormLoad).trans (congrArg _ ?_), (edited stormErase).trans (congrArg _ ?_)⟩
  · rw [partLoad_eq]
    simp only [apply_ite (s.answer _), State.answer_error, State.answer_ok]
    rfl
  · rw [partErase_eq]
    simp only [apply_ite (s.answer _), State.answer_error, State.answer_ok]
    rfl
  · rw [stormLoad_eq]
    simp only [apply_ite (s.answer _), State.answer_error, State.answer_ok]
    rfl
  · rw [stormErase_eq]
    simp only [apply_ite (s.answer _), State.answer_error, State.answer_ok]
    rfl

end Sys2Proof.Machine
end

section
/-! PROOFS. READ of the nine tables (O7). -/

namespace Sys2Proof.Machine

theorem partRead_eq (fs : List Byte) (s : State) : partRead fs s =
    if fs.length < 1 then .error .badEntry
    else if byteAt fs 0 ≠ 0 then .error .badIndex
    else .ok [s.trunk.node, s.trunk.alternate.getD 0xFF] := by
  rw [partRead, keyByte_zero]
  grind [Trunk.partBytes]

theorem stormRead_eq (fs : List Byte) (s : State) : stormRead fs s =
    if fs.length < 1 then .error .badEntry
    else if byteAt fs 0 ≠ 0 then .error .badIndex
    else .ok s.storm.bytes := by
  rw [stormRead, keyByte_zero]
  grind

section
variable {s : State} {addr tag : Byte} (h : s.Takes addr)
include h

theorem tableRead_own (fs : List Byte) (read : List Byte → State → Except ReplyCode (List Byte)) :
    tableRead addr (.coded tag fs) s read = .next (s.report ⟨addr, tag⟩ (read fs s)) := tableRead_coded h.1 h.2 tag fs read

theorem partStormRead (fs : List Byte) :
    exec (.partRead addr (.coded tag fs)) s = .next (
      if fs.length < 1 then s.reply ⟨addr, tag⟩ .badEntry []
      else if byteAt fs 0 ≠ 0 then s.reply ⟨addr, tag⟩ .badIndex []
      else s.reply ⟨addr, tag⟩ .done [s.trunk.node, s.trunk.alternate.getD 0xFF])
    ∧ exec (.stormRead addr (.coded tag fs)) s = .next (
      if fs.length < 1 then s.reply ⟨addr, tag⟩ .badEntry []
      else if byteAt fs 0 ≠ 0 then s.reply ⟨addr, tag⟩ .badIndex []
      else s.reply ⟨addr, tag⟩ .done s.storm.bytes) := by
  refine ⟨(tableRead_own h fs partRead).trans (congrArg _ ?_), (tableRead_own h fs stormRead).trans (congrArg _ ?_)⟩
  · rw [partRead_eq]
    simp only [apply_ite (s.report _), State.report_error, State.report_ok]
  · rw [stormRead_eq]
    simp only [apply_ite (s.report _), State.report_error, State.report_ok]

theorem read_keyless : ∀ c ∈ [Instr.partRead addr (.coded tag []), .lineRead addr (.coded tag []),
      .outstationRead addr (.coded tag []), .assetRead addr (.coded tag []), .pointRead addr (.coded tag []),
      .faultProfileRead addr (.coded tag []), .loopProfileRead addr (.coded tag []), .stormRead addr (.coded tag []),
      .beaconRead addr (.coded tag [])], exec c s = .next (s.reply ⟨addr, tag⟩ .badEntry []) := by
  simp only [List.forall_mem_cons, List.not_mem_nil, false_imp_iff, implies_true, and_true]
  refine ⟨?_, ?_, ?_, ?_, ?_, ?_, ?_, ?_, ?_⟩
  all_goals exact tableRead_own h [] _

theorem lineRead_cons (key : Byte) (fs : List Byte) : exec (.lineRead addr (.coded tag (key :: fs))) s = .next (
    if h : 1 ≤ key.toNat ∧ key.toNat ≤ 4 then s.reply ⟨addr, tag⟩ .done (s.lineBytes ⟨key.toNat - 1, by omega⟩)
    else s.reply ⟨addr, tag⟩ .badIndex []) := by
  refine (tableRead_own h _ lineRead).trans (congrArg _ ?_)
  split
  · next hk => rw [lineRead, finKey_cons fs ⟨key.toNat - 1, by omega⟩ (by simp only; omega), State.report_ok]
  · next hk => rw [lineRead, finKey_cons_of_out fs (by omega), State.report_error]

theorem beaconRead_cons (key : Byte) (fs : List Byte) : exec (.beaconRead addr (.coded tag (key :: fs))) s = .next (
    if h : 1 ≤ key.toNat ∧ key.toNat ≤ 4 then s.reply ⟨addr, tag⟩ .done (s.beacon ⟨key.toNat - 1, by omega⟩).bytes
    else s.reply ⟨addr, tag⟩ .badIndex []) := by
  refine (tableRead_own h _ beaconRead).trans (congrArg _ ?_)
  split
  · next hk => rw [beaconRead, finKey_cons fs ⟨key.toNat - 1, by omega⟩ (by simp only; omega), State.report_ok]
  · next hk => rw [beaconRead, finKey_cons_of_out fs (by omega), State.report_error]

theorem faultProfileRead_cons (key : Byte) (fs : List Byte) : exec (.faultProfileRead addr (.coded tag (key :: fs))) s = .next (
    if h : key.toNat < 16 then s.reply ⟨addr, tag⟩ .done (s.faultProfile ⟨key.toNat, h⟩).bytes
    else s.reply ⟨addr, tag⟩ .badIndex []) := by
  refine (tableRead_own h _ faultProfileRead).trans (congrArg _ ?_)
  split
  · next hk => rw [faultProfileRead, finKey_cons fs ⟨key.toNat, hk⟩ rfl, State.report_ok]
  · next hk => rw [faultProfileRead, finKey_cons_of_out fs (by omega), State.report_error]

theorem loopProfileRead_cons (key : Byte) (fs : List Byte) : exec (.loopProfileRead addr (.coded tag (key :: fs))) s = .next (
    if h : key.toNat < 8 then s.reply ⟨addr, tag⟩ .done (s.loopProfile ⟨key.toNat, h⟩).bytes
    else s.reply ⟨addr, tag⟩ .badIndex []) := by
  refine (tableRead_own h _ loopProfileRead).trans (congrArg _ ?_)
  split
  · next hk => rw [loopProfileRead, finKey_cons fs ⟨key.toNat, hk⟩ rfl, State.report_ok]
  · next hk => rw [loopProfileRead, finKey_cons_of_out fs (by omega), State.report_error]

theorem outstationRead_cons (key : Byte) (fs : List Byte) : exec (.outstationRead addr (.coded tag (key :: fs))) s = .next (
    if key.toNat ≤ 127 then s.reply ⟨addr, tag⟩ .done (s.outstationBytes key.toNat)
    else s.reply ⟨addr, tag⟩ .badIndex []) := by
  refine (tableRead_own h _ outstationRead).trans (congrArg _ ?_)
  rw [outstationRead, keyByte_cons]
  by_cases hk : key.toNat ≤ 127 <;> simp [hk]

theorem assetRead_cons (hi lo : Byte) (fs : List Byte) : exec (.assetRead addr (.coded tag (hi :: lo :: fs))) s = .next (
    if 256 * hi.toNat + lo.toNat ≤ 2047 then s.reply ⟨addr, tag⟩ .done (s.assetBytes (256 * hi.toNat + lo.toNat))
    else s.reply ⟨addr, tag⟩ .badIndex []) := by
  refine (tableRead_own h _ assetRead).trans (congrArg _ ?_)
  rw [assetRead, assetKey_cons]
  by_cases hk : 256 * hi.toNat + lo.toNat ≤ 2047 <;> simp [hk]

theorem pointRead_short {o : Byte} (ho : o.toNat ≤ 127) {fs : List Byte} (hl : fs.length < 2) :
    exec (.pointRead addr (.coded tag (o :: fs))) s = .next (s.reply ⟨addr, tag⟩ .badEntry []) := by
  refine (tableRead_own h _ pointRead).trans (congrArg _ ?_)
  rw [pointRead, pointKeyOf_of_short ho hl, State.report_error]

theorem pointRead_out {o : Byte} (ho : 127 < o.toNat) (fs : List Byte) :
    exec (.pointRead addr (.coded tag (o :: fs))) s = .next (s.reply ⟨addr, tag⟩ .badIndex []) := by
  refine (tableRead_own h _ pointRead).trans (congrArg _ ?_)
  rw [pointRead, pointKeyOf_of_out fs ho, State.report_error]

theorem pointRead_cons {o : Byte} (hi lo : Byte) (fs : List Byte) (ho : o.toNat ≤ 127) :
    exec (.pointRead addr (.coded tag (o :: hi :: lo :: fs))) s = .next (
    if 256 * hi.toNat + lo.toNat ≤ 1023 then
      s.reply ⟨addr, tag⟩ .done (s.pointBytes (1024 * o.toNat + (256 * hi.toNat + lo.toNat)))
    else s.reply ⟨addr, tag⟩ .badIndex []) := by
  refine (tableRead_own h _ pointRead).trans (congrArg _ ?_)
  rw [pointRead, pointKeyOf_cons hi lo fs ho]
  by_cases hk : 256 * hi.toNat + lo.toNat ≤ 1023 <;> simp [hk]

end

theorem Health.bytes_eq (h : Health) : h.bytes = match h with
    | .healthy => [0, 0xFF]
    | .faulty severity => [1, BitVec.ofNat 8 severity.code] := by
  cases h <;> rfl

theorem windowBytes_eq (a : Nat) (w : Option Window) : windowBytes a w = match w with
    | none => [0, 0, 0, 0, 0, 0]
    | some w =>
      be8 (128 + (if w.gap then 1 else 0) + (if w.last.isSome then 2 else 0)) ++ be16 w.count
        ++ (match w.last with
          | some n => be16 n
          | none => beWord (Config.absentLastWindow a))
        ++ be8 w.result.code := by
  cases w <;> rfl

/-- Settles O7. -/
theorem readsReportEntries : Obligations.ReadsReportEntries := by
  intro s addr tag fs h
  obtain ⟨part, storm⟩ := partStormRead h fs (tag := tag)
  refine ⟨part, storm, read_keyless h, fun key => ⟨lineRead_cons h key fs, outstationRead_cons h key fs, ?_, ?_, ?_,
    tableRead_own h [key] assetRead, fun lo => assetRead_cons h key lo fs⟩, fun o hi lo ho => ⟨pointRead_short h ho (by simp),
    pointRead_short h ho (by simp), pointRead_cons h hi lo fs ho⟩, fun o ho => pointRead_out h ho fs, fun k => ?_, fun o => ?_,
    fun a => ?_, fun key => ?_⟩
  · refine (faultProfileRead_cons h key fs).trans ?_
    simp only [FaultProfile.bytes]
  · refine (loopProfileRead_cons h key fs).trans ?_
    simp only [LoopProfile.bytes, Band.bytes, List.flatMap_cons, List.flatMap_nil, List.append_assoc, List.append_nil]
  · refine (beaconRead_cons h key fs).trans ?_
    simp only [Beacon.bytes]
  · simp only [State.lineBytes, LineCounters.bytes, State.pollAddress, List.append_assoc] <;> rfl
  · rw [State.outstationBytes]
    cases s.outstation? o <;> rfl
  · rw [State.assetBytes]
    cases hx : s.asset? a with
    | none => rfl
    | some x =>
      dsimp only
      rw [Health.bytes_eq, windowBytes_eq]
      cases x.config.loopProfile <;> rfl
  · rw [State.pointBytes]
    cases s.points.get? key with
    | none => rfl
    | some p => cases p <;> rfl

end Sys2Proof.Machine
end

section
/-! PROOFS. LINE and OUTSTATION edits (O9, O10). -/

namespace Sys2Proof.Machine

theorem tableEdit_own {s : State} {addr tag : Byte} (h : s.Takes addr) (hm : s.mode ≠ .entering) (fs : List Byte)
    (edit : List Byte → State → Except ReplyCode State) :
    tableEdit addr (.coded tag fs) s edit = .next (s.answer ⟨addr, tag⟩ (edit fs s)) := tableEdit_coded h.1 h.2 hm tag fs edit

/-! ## LINE (R18) -/

theorem Outstation.underSettings_eq (old new : LineSettings) (x : Outstation) : x.underSettings old new =
    if old.personality ≠ new.personality then x.renewed
    else if new.personality = .polled ∧ new.rv < old.rv then { x with countdown := min x.countdown new.rv }
    else if new.personality = .exception ∧ new.g < old.g then { x with countdown := min x.countdown new.g }
    else x := by
  unfold Outstation.underSettings
  cases new.personality <;> simp

/-- The state a LINE edit leaves. -/
def State.lineStored (s : State) (k : Fin 4) (new : LineSettings) : State :=
  ({ s with
    lines := s.lines.set k.val { s.line k with settings := new } k.isLt,
    outstations := s.outstations.mapAll fun o x =>
      if o / 32 ≠ k.val then x
      else if (s.line k).settings.personality ≠ new.personality then x.renewed
      else if new.personality = .polled ∧ new.rv < (s.line k).settings.rv then
        { x with countdown := min x.countdown new.rv }
      else if new.personality = .exception ∧ new.g < (s.line k).settings.g then
        { x with countdown := min x.countdown new.g }
      else x } : State).settleBeacons

theorem State.storeLineSettings_eq (s : State) (k : Fin 4) (new : LineSettings) :
    s.storeLineSettings k new = s.lineStored k new := by
  have outstations : (fun (o : Nat) (x : Outstation) => if lineOf o = k.val then x.underSettings (s.line k).settings new else x)
      = fun (o : Nat) (x : Outstation) => if o / 32 ≠ k.val then x
        else if (s.line k).settings.personality ≠ new.personality then x.renewed
        else if new.personality = .polled ∧ new.rv < (s.line k).settings.rv then
          { x with countdown := min x.countdown new.rv }
        else if new.personality = .exception ∧ new.g < (s.line k).settings.g then
          { x with countdown := min x.countdown new.g }
        else x := by
    funext o x
    rw [Outstation.underSettings_eq, lineOf]
    by_cases ho : o / 32 = k.val
    · rw [if_pos ho, if_neg (not_not.2 ho)]
    · rw [if_neg ho, if_pos ho]
  rw [State.storeLineSettings, outstations]
  rfl

theorem readLineSettings_of_code {fs : List Byte} {p : Personality} (h : byteAt fs 1 = p.code) :
    readLineSettings fs = some {
      personality := p, t1 := max 1 (byteAt fs 2), n2 := min 7 (byteAt fs 3), rv := max 1 (min 15 (byteAt fs 4)),
      g := max 10 (min 3600 (wordAt fs 5)), fmax := max 16 (byteAt fs 7) } := by
  have low (i : Nat) : byteAt fs i ≤ 255 := Nat.le_of_lt_succ (BitVec.isLt _)
  have code : Personality.ofCode (byteAt fs 1) = some p := by
    rw [h]
    cases p <;> rfl
  rw [readLineSettings, code]
  simp only [clamp, Option.map_some, Option.some.injEq, LineSettings.mk.injEq, true_and, Nat.zero_max]
  exact ⟨by rw [Nat.min_eq_right (low 2)], by rw [Nat.min_eq_right (low 7)]⟩

theorem readLineSettings_of_unknown {fs : List Byte} (h : 2 < byteAt fs 1) : readLineSettings fs = none := by
  rw [readLineSettings, Option.map_eq_none_iff]
  unfold Personality.ofCode
  split
  · omega
  · omega
  · omega
  · rfl

/-- Settles O9. -/
theorem lineEdits : Obligations.LineEdits := by
  intro s addr tag fs h hm stored
  refine ⟨?_, fun k hl hk => ⟨(tableEdit_own h hm fs lineErase).trans (congrArg _ ?_), fun hbad =>
    (tableEdit_own h hm fs lineLoad).trans (congrArg _ ?_), fun p hfs hp =>
    (tableEdit_own h hm fs lineLoad).trans (congrArg _ ?_)⟩⟩
  · simp only [List.forall_mem_cons, List.not_mem_nil, false_imp_iff, implies_true, and_true]
    refine ⟨⟨fun hs => (tableEdit_own h hm fs lineLoad).trans (congrArg _ ?_),
        fun hs ho => (tableEdit_own h hm fs lineLoad).trans (congrArg _ ?_)⟩,
      ⟨fun hs => (tableEdit_own h hm fs lineErase).trans (congrArg _ ?_),
        fun hs ho => (tableEdit_own h hm fs lineErase).trans (congrArg _ ?_)⟩⟩
    · rw [lineLoad, finKey_of_short hs, State.answer_error]
    · rw [lineLoad, finKey_of_out hs (by omega), State.answer_error]
    · rw [lineErase, finKey_of_short hs, State.answer_error]
    · rw [lineErase, finKey_of_out hs (by omega), State.answer_error]
  · rw [lineErase, finKey_of_eq hl hk]
    dsimp only
    rw [apply_ite (s.answer _), State.answer_error, State.answer_ok, State.storeLineSettings_eq]
    rfl
  · rw [lineLoad, finKey_of_eq hl hk]
    dsimp only
    split
    · rfl
    · rw [readLineSettings_of_unknown (hbad.resolve_left ‹_›), State.answer_error]
  · rw [lineLoad, finKey_of_eq hl hk]
    dsimp only
    rw [if_neg (by omega), readLineSettings_of_code hp]
    dsimp only
    rw [apply_ite (s.answer _), State.answer_error, State.answer_ok, State.storeLineSettings_eq]
    rfl

/-! ## OUTSTATION (R21 to R23) -/

theorem State.linkValid_eq_false {s : State} {link : Option Nat} :
    s.linkValid link = false ↔ ∃ a ∈ link, (s.asset? a).map (fun x => x.config.kind) ≠ some .cabinet := by
  cases link with
  | none => simp [State.linkValid]
  | some a => cases hx : s.asset? a <;> simp [State.linkValid, hx]

theorem State.addressTaken_iff {s : State} {o address : Nat} : s.addressTaken o address = true
    ↔ ∃ e ∈ s.outstations, e.1 ≠ o ∧ e.1 / 32 = o / 32 ∧ e.2.config.address = address := by
  simp only [State.addressTaken, List.any_eq_true, decide_eq_true_eq]
  rfl

theorem readOutstationConfig_refused {station policy : Byte} (key : Byte) (fs : List Byte)
    (h : ¬(1 ≤ station.toNat ∧ station.toNat ≤ 250) ∨ 2 < policy.toNat) :
    readOutstationConfig (key :: station :: policy :: fs) = none := by
  unfold readOutstationConfig
  split
  · rfl
  · next p hp =>
    refine if_neg fun hs => ?_
    have unknown : 2 < policy.toNat := h.resolve_left fun hn => hn hs
    change RelayPolicy.ofCode policy.toNat = some p at hp
    unfold RelayPolicy.ofCode at hp
    split at hp <;> first | omega | cases hp

theorem readOutstationConfig_taken {station policy : Byte} (key hi lo : Byte) (fs : List Byte) {p : RelayPolicy}
    (h1 : 1 ≤ station.toNat) (h2 : station.toNat ≤ 250) (hp : policy.toNat = p.code) :
    readOutstationConfig (key :: station :: policy :: hi :: lo :: fs) = some ⟨station.toNat, p,
      if 256 * hi.toNat + lo.toNat = 0xFFFF then none else some (256 * hi.toNat + lo.toNat)⟩ := by
  have code : RelayPolicy.ofCode (byteAt (key :: station :: policy :: hi :: lo :: fs) 2) = some p := by
    change RelayPolicy.ofCode policy.toNat = some p
    rw [hp]
    cases p <;> rfl
  rw [readOutstationConfig, code]
  exact if_pos ⟨h1, h2⟩

theorem outstationAfterLoad_eq (old : Option Outstation) (config : OutstationConfig) : outstationAfterLoad old config =
    match old with
    | some x => if x.config.address = config.address then { x with config := config }
        else ⟨config, .new, 0, none, 0, true, false⟩
    | none => ⟨config, .new, 0, none, 0, true, false⟩ := by
  cases old <;> rfl

theorem outstationErase_of_key {s : State} {key : Byte} (fs : List Byte) (hk : key.toNat ≤ 127) :
    outstationErase (key :: fs) s =
      if s.mode ≠ .maintain then .error .badMode
      else if s.outstation? key.toNat = none then .ok s
      else if ∃ e ∈ s.points, e.1 / 1024 = key.toNat ∧ e.2.resolved = true then .error .conflict
      else .ok (({ s with
        points := s.points.filter fun e => ¬(e.1 / 1024 = key.toNat ∧ e.2.resolved = false),
        outstations := s.outstations.del key.toNat } : State).settleBeacons) := by
  have points : s.pointsWithoutPendingOf key.toNat
      = s.points.filter fun e => ¬(e.1 / 1024 = key.toNat ∧ e.2.resolved = false) := by
    refine List.filter_congr fun e _ => ?_
    simp [pointOutstation]
  rw [outstationErase, keyByte_cons, if_pos hk]
  dsimp only
  rw [points]
  refine if_congr Iff.rfl rfl (if_congr (by simp) rfl (if_congr ?_ rfl rfl))
  simp only [List.any_eq_true, decide_eq_true_eq]
  rfl

theorem outstationLoad_of_key {s : State} {key : Byte} (fs : List Byte) (hk : key.toNat ≤ 127) (hl : 4 ≤ fs.length) :
    outstationLoad (key :: fs) s = match readOutstationConfig (key :: fs) with
      | none => .error .badEntry
      | some config =>
        if !s.linkValid config.link then .error .badEntry
        else if s.mode ≠ .maintain then .error .badMode
        else if s.addressTaken key.toNat config.address then .error .conflict
        else .ok (s.setOutstations
          (s.outstations.put key.toNat (outstationAfterLoad (s.outstation? key.toNat) config))).settleBeacons := by
  rw [outstationLoad, keyByte_cons, if_pos hk]
  exact if_neg (by simp only [List.length_cons]; omega)

/-- Settles O10. -/
theorem outstationEdits : Obligations.OutstationEdits := by
  intro s addr tag key fs h hm
  refine ⟨?_, fun hk => ?_, fun hk => (tableEdit_own h hm _ outstationErase).trans (congrArg _ ?_), fun hk hl =>
    (tableEdit_own h hm _ outstationLoad).trans (congrArg _ ?_), fun station policy hi lo hk => ⟨fun hbad =>
    (tableEdit_own h hm _ outstationLoad).trans (congrArg _ ?_), fun p link h1 h2 hp hlink =>
    (tableEdit_own h hm _ outstationLoad).trans (congrArg _ ?_)⟩⟩
  · simp only [List.forall_mem_cons, List.not_mem_nil, false_imp_iff, implies_true, and_true]
    exact ⟨tableEdit_own h hm [] outstationLoad, tableEdit_own h hm [] outstationErase⟩
  · simp only [List.forall_mem_cons, List.not_mem_nil, false_imp_iff, implies_true, and_true]
    refine ⟨(tableEdit_own h hm _ outstationLoad).trans (congrArg _ ?_),
      (tableEdit_own h hm _ outstationErase).trans (congrArg _ ?_)⟩
    · rw [outstationLoad, keyByte_cons, if_neg (by omega), State.answer_error]
    · rw [outstationErase, keyByte_cons, if_neg (by omega), State.answer_error]
  · rw [outstationErase_of_key fs hk]
    simp only [apply_ite (s.answer _), State.answer_error, State.answer_ok]
  · rw [outstationLoad, keyByte_cons, if_pos hk]
    dsimp only
    rw [if_pos (by simp only [List.length_cons]; omega), State.answer_error]
  · rw [outstationLoad_of_key _ hk (by simp), readOutstationConfig_refused _ _ hbad, State.answer_error]
  · rw [outstationLoad_of_key _ hk (by simp), readOutstationConfig_taken _ _ _ _ h1 h2 hp, ← hlink]
    simp only [apply_ite (s.answer _), State.answer_error, State.answer_ok, outstationAfterLoad_eq]
    refine if_congr ?_ rfl (if_congr Iff.rfl rfl (if_congr State.addressTaken_iff rfl ?_))
    · rw [← State.linkValid_eq_false]
      simp
    · cases s.outstation? key.toNat <;> rfl

end Sys2Proof.Machine
end

section
/-! PROOFS. FAULT-PROFILE, LOOP-PROFILE and BEACON edits, and BEACON-RESET (O16, O17, O18). -/

namespace Sys2Proof.Machine

/-! ## FAULT-PROFILE (R66, R67) -/

/-- The state a FAULT-PROFILE edit leaves. -/
def State.faultProfileStored (s : State) (p : Fin 16) (new : FaultProfile) : State :=
  ({ s with
    faultProfiles := s.faultProfiles.set p.val new p.isLt,
    assets := s.assets.mapAll fun _ x =>
      if x.config.faultProfile = p then { x with integrator := min x.integrator new.ceiling } else x,
    records := s.records.mapAll fun _ r =>
      match s.asset? r.asset with
      | some x =>
        if x.config.faultProfile = p ∧ urgencyOf new r.severity x.config.weight r.absorbed r.steps ≠ r.urgency then
          { r with urgency := urgencyOf new r.severity x.config.weight r.absorbed r.steps, changeDue := true }
        else r
      | none => r } : State).settleBeacons

theorem State.storeFaultProfile_eq (s : State) (p : Fin 16) (new : FaultProfile) :
    s.storeFaultProfile p new = s.faultProfileStored p new := by
  unfold State.storeFaultProfile
  dsimp only
  generalize ht : (s.setFaultProfiles (s.faultProfiles.set p.val new p.isLt)).setAssets _ = t
  have asset (a : Nat) : t.asset? a = (s.asset? a).map fun x =>
      if x.config.faultProfile = p then { x with integrator := min x.integrator new.ceiling } else x := by
    rw [← ht]
    exact Table.get?_mapAll s.assets (fun _ x =>
      if x.config.faultProfile = p then { x with integrator := min x.integrator new.ceiling } else x) a
  have profile : t.faultProfile p = new := by
    rw [← ht]
    exact s.faultProfile_setFaultProfiles_self p new
  refine (congrArg (fun f => (t.setRecords (t.records.mapAll f)).settleBeacons) (?_ : _ = fun (_ : Nat) (r : FaultRecord) =>
    match s.asset? r.asset with
    | some x =>
      if x.config.faultProfile = p ∧ urgencyOf new r.severity x.config.weight r.absorbed r.steps ≠ r.urgency then
        { r with urgency := urgencyOf new r.severity x.config.weight r.absorbed r.steps, changeDue := true }
      else r
    | none => r)).trans ?_
  · funext _ r
    rw [State.refreshed, asset]
    cases s.asset? r.asset with
    | none => rfl
    | some x =>
      by_cases hp : x.config.faultProfile = p
      · simp only [Option.map_some, hp, if_true, profile, true_and, ite_not]
      · simp only [Option.map_some, hp, if_false, false_and]
  · rw [← ht]
    rfl

theorem readFaultProfile_eq (fs : List Byte) : readFaultProfile fs =
    if byteAt fs 1 < 1 ∨ 15 < byteAt fs 1 ∨ 15 < byteAt fs 2 ∨ byteAt fs 3 < 1 ∨ 15 < byteAt fs 3
        ∨ byteAt fs 4 < 1 ∨ 63 < byteAt fs 4 ∨ byteAt fs 5 < 1 ∨ 63 < byteAt fs 5 ∨ 4095 < wordAt fs 6
        ∨ 4095 < wordAt fs 8 ∨ 63 < byteAt fs 10 then none
    else some {
      up := byteAt fs 1, degrade := byteAt fs 2, down := byteAt fs 3, ceiling := byteAt fs 4,
      threshold := min (byteAt fs 5) (byteAt fs 4), baseFail := wordAt fs 6, baseDegraded := wordAt fs 8,
      perAbsorbed := byteAt fs 10, perStep := byteAt fs 11, interval := byteAt fs 12 } := by
  rw [readFaultProfile]
  dsimp only
  split
  · exact (if_neg (by omega)).symm
  · exact (if_pos (by omega)).symm

/-- Settles O16. -/
theorem faultProfileEdits : Obligations.FaultProfileEdits := by
  intro s addr tag fs h hm stored
  refine ⟨?_, fun p hl hp => ⟨(tableEdit_own h hm fs faultProfileErase).trans (congrArg _ ?_),
    (tableEdit_own h hm fs faultProfileLoad).trans (congrArg _ ?_)⟩⟩
  · simp only [List.forall_mem_cons, List.not_mem_nil, false_imp_iff, implies_true, and_true]
    refine ⟨⟨fun hs => (tableEdit_own h hm fs faultProfileLoad).trans (congrArg _ ?_),
        fun hs ho => (tableEdit_own h hm fs faultProfileLoad).trans (congrArg _ ?_)⟩,
      ⟨fun hs => (tableEdit_own h hm fs faultProfileErase).trans (congrArg _ ?_),
        fun hs ho => (tableEdit_own h hm fs faultProfileErase).trans (congrArg _ ?_)⟩⟩
    · rw [faultProfileLoad, finKey_of_short hs, State.answer_error]
    · rw [faultProfileLoad, finKey_of_out hs (by omega), State.answer_error]
    · rw [faultProfileErase, finKey_of_short hs, State.answer_error]
    · rw [faultProfileErase, finKey_of_out hs (by omega), State.answer_error]
  · rw [faultProfileErase, finKey_of_eq (lo := 0) hl hp]
    dsimp only
    rw [apply_ite (s.answer _), State.answer_error, State.answer_ok, State.storeFaultProfile_eq]
    rfl
  · rw [faultProfileLoad, finKey_of_eq (lo := 0) hl hp]
    dsimp only
    rw [apply_ite (s.answer _), readFaultProfile_eq]
    refine if_congr Iff.rfl rfl ?_
    split_ifs with _ hbad hmode
    · rfl
    · rfl
    · rfl
    · dsimp only
      rw [State.storeFaultProfile_eq]
      rfl

/-! ## LOOP-PROFILE (R80, R81) -/

theorem readLoopProfile_eq (fs : List Byte) : readLoopProfile fs =
    if byteAt fs 1 ∉ [5, 10, 15, 20, 30, 60] ∨ wordAt fs 2 < 1 ∨ 4095 < wordAt fs 2 then none
    else if ¬((readBand fs 4).start = 0 ∧ (readBand fs 4).start < (readBand fs 10).start
        ∧ (readBand fs 10).start < (readBand fs 16).start ∧ (readBand fs 16).start < (readBand fs 22).start
        ∧ (readBand fs 22).start ≤ 1439) then none
    else if (readBand fs 4).max < (readBand fs 4).min ∨ (readBand fs 10).max < (readBand fs 10).min
        ∨ (readBand fs 16).max < (readBand fs 16).min ∨ (readBand fs 22).max < (readBand fs 22).min then none
    else some {
      length := byteAt fs 1, limit := wordAt fs 2, band0 := readBand fs 4, band1 := readBand fs 10,
      band2 := readBand fs 16, band3 := readBand fs 22 } := by
  rw [readLoopProfile]
  simp only [List.contains_eq_mem, decide_eq_true_eq]
  by_cases member : byteAt fs 1 ∈ [5, 10, 15, 20, 30, 60]
  · simp only [member, true_and, not_true_eq_false, false_or]
    split_ifs <;> first | rfl | omega
  · rw [if_neg fun h => member h.1, if_pos (.inl member)]

/-- Settles O17. -/
theorem loopProfileEdits : Obligations.LoopProfileEdits := by
  intro s addr tag fs h hm stored band
  refine ⟨?_, fun p hl hp => ⟨(tableEdit_own h hm fs loopProfileErase).trans (congrArg _ ?_),
    (tableEdit_own h hm fs loopProfileLoad).trans (congrArg _ ?_)⟩⟩
  · simp only [List.forall_mem_cons, List.not_mem_nil, false_imp_iff, implies_true, and_true]
    refine ⟨⟨fun hs => (tableEdit_own h hm fs loopProfileLoad).trans (congrArg _ ?_),
        fun hs ho => (tableEdit_own h hm fs loopProfileLoad).trans (congrArg _ ?_)⟩,
      ⟨fun hs => (tableEdit_own h hm fs loopProfileErase).trans (congrArg _ ?_),
        fun hs ho => (tableEdit_own h hm fs loopProfileErase).trans (congrArg _ ?_)⟩⟩
    · rw [loopProfileLoad, finKey_of_short hs, State.answer_error]
    · rw [loopProfileLoad, finKey_of_out hs (by omega), State.answer_error]
    · rw [loopProfileErase, finKey_of_short hs, State.answer_error]
    · rw [loopProfileErase, finKey_of_out hs (by omega), State.answer_error]
  · rw [loopProfileErase, finKey_of_eq (lo := 0) hl hp]
    dsimp only
    rw [apply_ite (s.answer _), State.answer_error, State.answer_ok]
    rfl
  · rw [loopProfileLoad, finKey_of_eq (lo := 0) hl hp]
    dsimp only
    rw [apply_ite (s.answer _), readLoopProfile_eq]
    refine if_congr Iff.rfl rfl ?_
    split_ifs <;> first | rfl | contradiction

/-! ## BEACON (R166, R169) -/

/-- A beacon just loaded, field by field (R166). -/
theorem Beacon.startAfresh_eq (x : Beacon) (source : BeaconSource) (argument : Nat) (stretch : Stretch) (v : Bool) :
    { x with source := source, argument := argument, stretch := stretch }.startAfresh v =
      { source := source, argument := argument, stretch := stretch, value := v, output := v,
        count := if v then (stretch.seconds.map (· + 1)).getD 0 else 0, latch := v && stretch = .latched } := by
  cases v with
  | false => rfl
  | true => cases stretch <;> rfl

theorem Beacon.unlatch_eq (x : Beacon) : x.unlatch =
    if x.stretch = .latched then { x with latch := x.value, output := x.value && x.output } else x := by
  unfold Beacon.unlatch
  cases x.stretch <;> cases x.value <;> rfl

theorem State.adjustBeacon_self (s : State) (b : Fin 4) {f : Beacon → Beacon} (h : f (s.beacon b) = s.beacon b) :
    s.adjustBeacon b f = s := by
  have same : s.beacons.set b.val (f (s.beacons.get b)) b.isLt = s.beacons := by
    change f (s.beacons.get b) = s.beacons.get b at h
    rw [h]
    exact Vector.set_getElem_self b.isLt
  rw [State.adjustBeacon, same]
  rfl

/-- The state a BEACON edit leaves: one beacon replaced. -/
def State.beaconStored (s : State) (b : Fin 4) (x : Beacon) : State := { s with beacons := s.beacons.set b.val x b.isLt }

/-- The beacon a LOAD leaves (R166). -/
def State.beaconLoaded (s : State) (source : BeaconSource) (argument : Nat) (stretch : Stretch) : Beacon :=
  { source := source, argument := argument, stretch := stretch, value := s.sourceValue source argument,
    output := s.sourceValue source argument,
    count := if s.sourceValue source argument then (stretch.seconds.map (· + 1)).getD 0 else 0,
    latch := s.sourceValue source argument && stretch = .latched }

theorem State.storeBeacon_eq (s : State) (b : Fin 4) (source : BeaconSource) (argument : Nat) (stretch : Stretch) :
    s.storeBeacon b source argument stretch = s.beaconStored b (s.beaconLoaded source argument stretch) :=
  congrArg (s.beaconStored b) (Beacon.startAfresh_eq (s.beacons.get b) source argument stretch (s.sourceValue source argument))

theorem State.adjustBeacon_unlatch (s : State) (b : Fin 4) : s.adjustBeacon b Beacon.unlatch =
    if (s.beacon b).stretch = .latched then
      s.beaconStored b { s.beacon b with
        latch := (s.beacon b).value, output := (s.beacon b).value && (s.beacon b).output }
    else s := by
  split
  · next h =>
    refine congrArg (s.beaconStored b) ((Beacon.unlatch_eq _).trans (if_pos h))
  · next h => exact s.adjustBeacon_self b ((Beacon.unlatch_eq _).trans (if_neg h))

theorem beaconSource_ofCode_of_out {n : Nat} (h : 6 < n) : BeaconSource.ofCode n = none := by
  unfold BeaconSource.ofCode
  split <;> first | omega | rfl

theorem stretch_ofCode_of_out {n : Nat} (h : 7 < n) : Stretch.ofCode n = none := by
  unfold Stretch.ofCode
  split <;> first | omega | rfl

theorem beaconSource_ofCode_code (source : BeaconSource) : BeaconSource.ofCode source.code = some source := by
  cases source <;> rfl

theorem stretch_ofCode_code (stretch : Stretch) : Stretch.ofCode stretch.code = some stretch := by
  cases stretch <;> rfl

theorem beaconLoad_refused {s : State} {fs : List Byte} {b : Fin 4} (hl : 1 ≤ fs.length) (hb : byteAt fs 0 = b.val + 1)
    (h : fs.length < 5 ∨ 6 < byteAt fs 1 ∨ 7 < byteAt fs 4 ∨ (byteAt fs 1 = 6 ∧ ¬(1 ≤ wordAt fs 2 ∧ wordAt fs 2 ≤ 4))) :
    beaconLoad fs s = .error .badEntry := by
  rw [beaconLoad, finKey_of_eq hl hb]
  dsimp only
  split
  · rfl
  · next hlen =>
    rcases h with h | h | h | ⟨h, hw⟩
    · exact absurd h hlen
    · rw [beaconSource_ofCode_of_out h]
    · rw [stretch_ofCode_of_out h]
      cases BeaconSource.ofCode (byteAt fs 1) <;> rfl
    · rw [h, show BeaconSource.ofCode 6 = some .lineSilent from rfl]
      cases Stretch.ofCode (byteAt fs 4) with
      | none => rfl
      | some => exact if_pos ⟨rfl, by omega⟩

theorem beaconLoad_taken {s : State} {fs : List Byte} {b : Fin 4} {source : BeaconSource} {stretch : Stretch}
    (hl : 5 ≤ fs.length) (hb : byteAt fs 0 = b.val + 1) (hs : byteAt fs 1 = source.code) (ht : byteAt fs 4 = stretch.code)
    (hw : source = .lineSilent → 1 ≤ wordAt fs 2 ∧ wordAt fs 2 ≤ 4) :
    beaconLoad fs s = .ok (s.beaconStored b (s.beaconLoaded source (wordAt fs 2) stretch)) := by
  rw [beaconLoad, finKey_of_eq (by omega) hb]
  dsimp only
  rw [if_neg (by omega), hs, ht, beaconSource_ofCode_code, stretch_ofCode_code]
  dsimp only
  rw [if_neg fun h => by have := hw h.1; omega, State.storeBeacon_eq]

/-- Settles O18. -/
theorem beaconEdits : Obligations.BeaconEdits := by
  intro s addr tag fs h stored loaded
  have reset (fs : List Byte) : exec (.beaconReset addr (.tagged tag fs)) s = .next (s.answer ⟨addr, tag⟩ (beaconReset fs s)) := by
    delta exec execBeaconReset
    exact directive_own h.1 h.2 tag _
  refine ⟨fun b hl hb => ⟨(reset fs).trans (congrArg _ ?_), fun hm => (tableEdit_own h hm fs beaconErase).trans (congrArg _ ?_),
    fun hm hbad => (tableEdit_own h hm fs beaconLoad).trans (congrArg _ ?_), fun source stretch hm hfs hs ht hw =>
    (tableEdit_own h hm fs beaconLoad).trans (congrArg _ ?_)⟩, fun hs => ⟨(reset fs).trans (congrArg _ ?_), fun hm => ?_⟩,
    fun hl ho => ⟨(reset fs).trans (congrArg _ ?_), fun hm => ?_⟩, ?_⟩
  · rw [beaconReset, finKey_of_eq hl hb, State.answer_ok, State.adjustBeacon_unlatch]
    rfl
  · rw [beaconErase, finKey_of_eq hl hb, State.answer_ok, State.storeBeacon_eq]
    rfl
  · rw [beaconLoad_refused hl hb hbad, State.answer_error]
  · rw [beaconLoad_taken hfs hb hs ht hw, State.answer_ok]
    rfl
  · rw [beaconReset, finKey_of_short hs, State.answer_error]
  · simp only [List.forall_mem_cons, List.not_mem_nil, false_imp_iff, implies_true, and_true]
    refine ⟨(tableEdit_own h hm fs beaconLoad).trans (congrArg _ ?_), (tableEdit_own h hm fs beaconErase).trans (congrArg _ ?_)⟩
    · rw [beaconLoad, finKey_of_short hs, State.answer_error]
    · rw [beaconErase, finKey_of_short hs, State.answer_error]
  · rw [beaconReset, finKey_of_out hl (by omega), State.answer_error]
  · simp only [List.forall_mem_cons, List.not_mem_nil, false_imp_iff, implies_true, and_true]
    refine ⟨(tableEdit_own h hm fs beaconLoad).trans (congrArg _ ?_), (tableEdit_own h hm fs beaconErase).trans (congrArg _ ?_)⟩
    · rw [beaconLoad, finKey_of_out hl (by omega), State.answer_error]
    · rw [beaconErase, finKey_of_out hl (by omega), State.answer_error]
  · delta exec execBeaconReset
    exact directive_own h.1 h.2 0 _

end Sys2Proof.Machine
end

section
/-! PROOFS. POINT edits (O15), the checks of an ASSET LOAD and its effect (O11 to O13), and ASSET ERASE (O14). -/

namespace Sys2Proof.Machine

/-! ## POINT (R53 to R57) -/

theorem Table.has_eq_false {α : Type} (t : Table α) (k : Nat) : t.has k = false ↔ t.get? k = none := by
  rw [Table.has]
  cases t.get? k <;> simp

theorem pointAfterLoad_eq (old : Option Point) (a : Nat) (isCount : Bool) : pointAfterLoad old a isCount =
    match old with
    | some (.pending c n) => if isCount then .count a n else .status a c
    | _ => if isCount then .count a none else .status a .unknown := by
  rcases old with - | ⟨⟩ | ⟨⟩ | ⟨⟩ <;> cases isCount <;> rfl

theorem State.pointAssetValid_eq_false {s : State} {a : Nat} {isCount : Bool} : s.pointAssetValid a isCount = false
    ↔ s.asset? a = none ∨ isCount = true ∧ (s.asset? a).map (fun x => x.config.kind) ≠ some .loop := by
  unfold State.pointAssetValid
  cases s.asset? a <;> cases isCount <;> simp

section
variable {s : State} {o chi clo : Byte} (ho : o.toNat ≤ 127) (hc : 256 * chi.toNat + clo.toNat ≤ 1023)
include ho hc

theorem pointErase_of_key (fs : List Byte) : pointErase (o :: chi :: clo :: fs) s
    = .ok (s.setPoints (s.points.del (1024 * o.toNat + (256 * chi.toNat + clo.toNat)))) := by
  rw [pointErase, pointKeyOf_cons _ _ _ ho, if_pos hc]

theorem pointLoad_short {fs : List Byte} (hl : fs.length < 3) :
    pointLoad (o :: chi :: clo :: fs) s = .error .badEntry := by
  rw [pointLoad, pointKeyOf_cons _ _ _ ho, if_pos hc]
  exact if_pos (by simp only [List.length_cons]; omega)

theorem pointLoad_of_key (ahi alo role : Byte) (fs : List Byte) {key a : Nat}
    (hkey : key = 1024 * o.toNat + (256 * chi.toNat + clo.toNat)) (ha : a = 256 * ahi.toNat + alo.toNat) :
    pointLoad (o :: chi :: clo :: ahi :: alo :: role :: fs) s =
      if 1 < role.toNat ∨ 2047 < a then .error .badEntry
      else if s.outstation? o.toNat = none ∨ s.asset? a = none then .error .badEntry
      else if role = 1 ∧ (s.asset? a).map (fun x => x.config.kind) ≠ some .loop then .error .badEntry
      else if s.points.get? key = none ∧ 4096 ≤ s.points.length then .error .full
      else .ok (s.setPoints (s.points.put key (pointAfterLoad (s.points.get? key) a (role.toNat = 1)))) := by
  have roleIs : role = 1 ↔ role.toNat = 1 := BitVec.toNat_inj.symm
  rw [pointLoad, pointKeyOf_cons _ _ _ ho, if_pos hc, ← hkey]
  dsimp only
  rw [if_neg (by simp)]
  have hw : wordAt (o :: chi :: clo :: ahi :: alo :: role :: fs) 3 = a := ha.symm
  have hr : byteAt (o :: chi :: clo :: ahi :: alo :: role :: fs) 5 = role.toNat := rfl
  have ho0 : byteAt (o :: chi :: clo :: ahi :: alo :: role :: fs) 0 = o.toNat := rfl
  rw [hw, hr, ho0]
  refine if_congr (or_congr Iff.rfl (by simp only [Config.assetCapacity]; omega)) rfl ?_
  have full : ((!s.points.has key) = true ∧ Config.pointCapacity ≤ s.points.length)
      ↔ (s.points.get? key = none ∧ 4096 ≤ s.points.length) := by
    rw [Bool.not_eq_true', Table.has_eq_false, Config.pointCapacity]
  have invalid := State.pointAssetValid_eq_false (s := s) (a := a) (isCount := decide (role.toNat = 1))
  rw [decide_eq_true_eq] at invalid
  by_cases hout : s.outstation? o.toNat = none
  · rw [if_pos (Option.isNone_iff_eq_none.2 hout), if_pos (.inl hout)]
  · rw [if_neg (fun h => hout (Option.isNone_iff_eq_none.1 h))]
    by_cases hab : s.asset? a = none
    · rw [if_pos (show s.outstation? o.toNat = none ∨ s.asset? a = none from .inr hab)]
      refine if_pos ?_
      rw [Bool.not_eq_true', invalid]
      exact .inl hab
    · rw [if_neg (show ¬(s.outstation? o.toNat = none ∨ s.asset? a = none) from fun h => h.elim hout hab)]
      refine if_congr ?_ rfl (if_congr full rfl rfl)
      rw [Bool.not_eq_true', invalid, or_iff_right hab, roleIs]

end

theorem pointEdit_out {o : Byte} {fs : List Byte} (h : 127 < o.toNat ∨ 2 ≤ fs.length ∧ 1023 < wordAt fs 0) :
    pointKeyOf (o :: fs) = .error .badIndex := by
  by_cases ho : 127 < o.toNat
  · exact pointKeyOf_of_out fs ho
  · obtain ⟨hl, hw⟩ := h.resolve_left ho
    obtain ⟨hi, lo, rest, rfl⟩ : ∃ hi lo rest, fs = hi :: lo :: rest := by
      match fs, hl with
      | hi :: lo :: rest, _ => exact ⟨hi, lo, rest, rfl⟩
    rw [pointKeyOf_cons _ _ _ (Nat.not_lt.1 ho)]
    exact if_neg (Nat.not_le.2 hw)

/-- Settles O15. -/
theorem pointEdits : Obligations.PointEdits := by
  intro s addr tag o chi clo ahi alo role fs key code a h hm hcode ha hkey
  have both {fs : List Byte} {code : ReplyCode} (hk : pointKeyOf fs = .error code) :
      ∀ c ∈ [Instr.pointLoad addr (.coded tag fs), .pointErase addr (.coded tag fs)],
        exec c s = .next (s.reply ⟨addr, tag⟩ code []) := by
    simp only [List.forall_mem_cons, List.not_mem_nil, false_imp_iff, implies_true, and_true]
    refine ⟨(tableEdit_own h hm fs pointLoad).trans (congrArg _ ?_), (tableEdit_own h hm fs pointErase).trans (congrArg _ ?_)⟩
    · rw [pointLoad, hk, State.answer_error]
    · rw [pointErase, hk, State.answer_error]
  subst hcode
  refine ⟨both rfl, fun hout => both (pointEdit_out hout), fun ho hl => both (pointKeyOf_of_short ho hl), fun ho hc =>
    ⟨(tableEdit_own h hm _ pointErase).trans (congrArg _ ?_), fun hl =>
    (tableEdit_own h hm _ pointLoad).trans (congrArg _ ?_), (tableEdit_own h hm _ pointLoad).trans (congrArg _ ?_)⟩⟩
  · rw [pointErase_of_key ho hc, hkey, State.answer_ok]
    rfl
  · rw [pointLoad_short ho hc hl, State.answer_error]
  · have roleIs : role = 1 ↔ role.toNat = 1 := BitVec.toNat_inj.symm
    rw [pointLoad_of_key ho hc ahi alo role fs hkey ha]
    simp only [apply_ite (s.answer _), State.answer_error, State.answer_ok, pointAfterLoad_eq, decide_eq_true_eq, roleIs]
    rfl

/-! ## ASSET ERASE (R12) -/

theorem State.eraseConflict_iff {s : State} {a : Nat} {x : Asset} : s.eraseConflict a x = true
    ↔ (∃ e ∈ s.assets, e.2.config.parent = some a) ∨ (∃ e ∈ s.points, e.2.namedAsset = some a)
      ∨ (∃ e ∈ s.outstations, e.2.config.link = some a)
      ∨ (x.faultId ≠ none ∨ x.waiting = true ∨ (s.mode = .run ∧ x.health ≠ .healthy))
      ∨ (s.mode = .run ∧ ((∃ e ∈ s.walkList, e.root = a) ∨ ∃ w ∈ s.walk, w.root = a)) := by
  have child : s.hasChild a = true ↔ ∃ e ∈ s.assets, e.2.config.parent = some a := by
    simp [State.hasChild, State.childrenOf, Table.keysWhere]
  have link : s.isLinkAsset a = true ↔ ∃ e ∈ s.outstations, e.2.config.link = some a := by
    simp [State.isLinkAsset]
  have root : s.isWalkRoot a = true ↔ (∃ e ∈ s.walkList, e.root = a) ∨ ∃ w ∈ s.walk, w.root = a := by
    unfold State.isWalkRoot
    cases s.walk <;> simp
  have named : s.points.any (fun e => e.2.namedAsset = some a) = true ↔ ∃ e ∈ s.points, e.2.namedAsset = some a := by simp
  simp only [State.eraseConflict, Bool.or_eq_true, Bool.and_eq_true, decide_eq_true_eq, child, link, root, named,
    Option.isSome_iff_ne_none, or_assoc]

/-- Settles O14. -/
theorem assetErases : Obligations.AssetErases := by
  intro s addr tag hi lo fs a h hm ha
  refine ⟨tableEdit_own h hm [] assetErase, tableEdit_own h hm [hi] assetErase,
    (tableEdit_own h hm _ assetErase).trans (congrArg _ ?_)⟩
  rw [assetErase, assetKey_cons, ← ha]
  by_cases hout : 2047 < a
  · rw [if_pos hout, if_neg (Nat.not_le.2 hout), State.answer_error]
  · rw [if_neg hout, if_pos (Nat.not_lt.1 hout)]
    dsimp only
    cases hx : s.asset? a with
    | none => rfl
    | some x =>
      dsimp only
      rw [apply_ite (s.answer _), State.answer_error, State.answer_ok, if_neg (Option.some_ne_none x)]
      refine if_congr (State.eraseConflict_iff.trans ?_) rfl rfl
      simp

/-! ## ASSET LOAD (R3 to R11) -/

/-- Settles O12. -/
theorem assetLoadCreates : Obligations.AssetLoadCreates := by
  intro s a config ha
  have inherited : s.inheritedAbsorber config.parent = config.parent.bind fun p =>
      match s.absorbedByOf p with
      | some z => some z
      | none => if s.faultIdOf p = none then none else some p := by
    cases config.parent with
    | none => rfl
    | some p =>
      simp only [State.inheritedAbsorber, Option.bind_some]
      cases s.absorbedByOf p with
      | some z => rfl
      | none => cases s.faultIdOf p <;> rfl
  rw [State.storeAsset, ha]
  dsimp only
  rw [State.newAsset, inherited]
  rfl

end Sys2Proof.Machine
end

section
/-! PROOFS. An ASSET LOAD on a present asset (O13) and the checks of an ASSET LOAD (O11). -/

namespace Sys2Proof.Machine

/-! ## The record of a reconfigured asset (R10, R145) -/

theorem Table.mapAll_congr {α : Type} {t : Table α} {f g : Nat → α → α} (h : ∀ e ∈ t, f e.1 e.2 = g e.1 e.2) :
    t.mapAll f = t.mapAll g := List.map_congr_left fun e he => by rw [h e he]

theorem Table.mapAll_eq_self {α : Type} {t : Table α} {f : Nat → α → α} (h : ∀ e ∈ t, f e.1 e.2 = e.2) : t.mapAll f = t :=
  (Table.mapAll_congr (g := fun _ x => x) h).trans t.map_id'

theorem State.onRecordOf_eq_mapAll (s : State) (a : Nat) (f : FaultRecord → FaultRecord) :
    s.onRecordOf a f = s.setRecords (s.records.mapAll fun id r => if s.faultIdOf a = some id then f r else r) := by
  unfold State.onRecordOf
  split
  · next own hown =>
    rw [State.adjustRecord, Table.adjust_eq_mapAll, hown]
    simp only [Option.some.injEq, eq_comm]
  · next hnone =>
    rw [hnone]
    exact (congrArg s.setRecords (Table.mapAll_eq_self fun _ _ => if_neg (Option.some_ne_none _).symm)).symm

/-- The fields of a present asset after a LOAD, written out (R7, R9, R10). -/
def State.assetReplaced (s : State) (x : Asset) (config : AssetConfig) : Asset :=
  { x with
    config := config,
    integrator :=
      if s.mode = .maintain ∨ x.config.faultProfile ≠ config.faultProfile then
        min x.integrator (s.faultProfile config.faultProfile).ceiling
      else x.integrator,
    window :=
      if config.kind ≠ .loop then none
      else if x.config.kind ≠ .loop then some { count := 0, gap := true, last := none, result := .unknown }
      else if x.config.loopProfile ≠ config.loopProfile then x.window.map fun w => { w with gap := true }
      else x.window }

/-- A record after the asset with fields `x` takes a configuration (R145). -/
def State.repricedFor (s : State) (x : Asset) (config : AssetConfig) (id : Nat) (r : FaultRecord) : FaultRecord :=
  let u := urgencyOf (s.faultProfile config.faultProfile) r.severity config.weight r.absorbed r.steps
  if x.faultId ≠ some id ∨ u = r.urgency then r else { r with urgency := u, changeDue := true }

section
variable {s : State} (hc : s.Canonical) (hl : s.FaultLaw) {a : Nat} {x : Asset} (hx : s.asset? a = some x)
include hc hl hx

theorem State.record_asset_of_faultId {e : Nat × FaultRecord} (he : e ∈ s.records) (hid : x.faultId = some e.1) :
    e.2.asset = a := by
  obtain ⟨r, hr, ha⟩ := (hl.balanced hc).record (State.faultIdOf_eq_some.2 ⟨x, hx, hid⟩)
  rw [Table.get?_of_mem hc.2.2.2 he] at hr
  exact Option.some.inj hr ▸ ha

theorem State.refreshOn_putAsset_eq {y : Asset} (hy : y.faultId = x.faultId) :
    (s.putAsset a y).refreshOn a = (s.putAsset a y).setRecords (s.records.mapAll (s.repricedFor x y.config)) := by
  have held : (s.putAsset a y).faultIdOf a = x.faultId := by
    rw [State.faultIdOf, State.asset?_putAsset_self, Option.bind_some, hy]
  rw [State.refreshOn, State.onRecordOf_eq_mapAll, held]
  refine congrArg (s.putAsset a y).setRecords (Table.mapAll_congr fun e he => ?_)
  rw [State.repricedFor]
  by_cases hid : x.faultId = some e.1
  · rw [if_pos hid, State.refreshed, State.record_asset_of_faultId hc hl hx he hid, State.asset?_putAsset_self]
    simp only [hid, ne_eq, not_true_eq_false, false_or]
    rfl
  · rw [if_neg hid, if_pos (.inl hid)]

/-- With the weight and the profile kept, every record stands at the formula already. -/
theorem State.mapAll_repricedFor_eq (hu : s.UrgencyLaw) {config : AssetConfig} (hw : x.config.weight = config.weight)
    (hp : x.config.faultProfile = config.faultProfile) : s.records.mapAll (s.repricedFor x config) = s.records := by
  refine Table.mapAll_eq_self fun e he => ?_
  by_cases hid : x.faultId = some e.1
  · have priced := hu e he x (by rw [State.record_asset_of_faultId hc hl hx he hid]; exact hx)
    rw [hw, hp] at priced
    exact if_pos (.inr priced.symm)
  · exact if_pos (.inl hid)

end

theorem State.reconfigured_eq (s : State) (x : Asset) (config : AssetConfig) :
    s.reconfigured x config = s.assetReplaced x config := rfl

/-- A LOAD of the fields already held leaves an asset as it was. -/
theorem State.assetReplaced_self {s : State} {x : Asset} (hi : x.integrator ≤ (s.faultProfile x.config.faultProfile).ceiling)
    (hw : x.window ≠ none ↔ x.config.kind = .loop) : s.assetReplaced x x.config = x := by
  rw [State.assetReplaced, Nat.min_eq_left hi, ite_self]
  by_cases hk : x.config.kind = .loop
  · simp [hk]
  · rw [if_pos hk]
    have none : x.window = none := by
      by_contra h
      exact hk (hw.1 h)
    rw [← none]

/-- Settles O13. -/
theorem assetLoadReplaces : Obligations.AssetLoadReplaces := by
  intro s a config x hc hl hu hx hwin _ replaced
  have whole : s.storeAsset a config = if x.config.weight = config.weight ∧ x.config.faultProfile = config.faultProfile
      then replaced else replaced.settleBeacons := by
    rw [State.storeAsset, hx]
    dsimp only
    rw [State.reconfigured_eq]
    by_cases hsame : x.config.weight = config.weight ∧ x.config.faultProfile = config.faultProfile
    · rw [if_pos hsame, if_neg fun h => h.elim (fun hn => hn hsame.1) fun hn => hn hsame.2]
      change _ = (s.putAsset a (s.assetReplaced x config)).setRecords (s.records.mapAll (s.repricedFor x config))
      rw [State.mapAll_repricedFor_eq hc hl hx hu hsame.1 hsame.2]
      rfl
    · rw [if_neg hsame, if_pos (Classical.not_and_iff_not_or_not.1 hsame),
        State.refreshOn_putAsset_eq hc hl hx (y := s.assetReplaced x config) rfl]
      rfl
  refine ⟨whole, fun hcfg hi => ?_⟩
  rw [State.storeAsset, hx]
  dsimp only
  rw [State.reconfigured_eq, ← hcfg, if_neg fun h => h.elim (fun hn => hn rfl) fun hn => hn rfl,
    State.assetReplaced_self (hi _ (Table.mem_of_get? hx)) hwin, State.putAsset, Table.put_of_get? hc.1 hx]
  rfl

/-! ## The fields of an ASSET LOAD (R3, R197) -/

theorem Kind.code_of_ofCode {n : Nat} {k : Kind} (h : Kind.ofCode n = some k) : k.code = n := by
  unfold Kind.ofCode at h
  split at h <;> cases h <;> rfl

theorem Kind.ofCode_code (k : Kind) : Kind.ofCode k.code = some k := by
  cases k <;> rfl

theorem Kind.code_le (k : Kind) : k.code ≤ 5 := by
  cases k <;> decide

theorem Kind.code_eq_four {k : Kind} : k.code = 4 ↔ k = .loop := by
  cases k <;> simp [Kind.code]

theorem readParentRef_eq_some {n : Nat} {r : Option Nat} : readParentRef n = some r
    ↔ (n = 0xFFFF ∧ r = none) ∨ (n ≠ 0xFFFF ∧ n ≤ 2047 ∧ r = some n) := by
  unfold readParentRef
  split
  · simp [*, eq_comm]
  · split
    · simp_all [Config.assetCapacity, Nat.le_of_lt_succ, eq_comm]
    · simp_all [Config.assetCapacity]
      omega

theorem readLoopProfileRef_eq_some {n : Nat} {r : Option (Fin 8)} : readLoopProfileRef n = some r
    ↔ (n = 0xFF ∧ r = none) ∨ (n ≠ 0xFF ∧ r.map Fin.val = some n) := by
  unfold readLoopProfileRef
  split
  · simp [*, eq_comm]
  · next hn =>
    split
    · next hlt =>
      rw [Option.some.injEq, or_iff_right fun h => hn h.1, and_iff_right hn, Option.map_eq_some_iff]
      constructor
      · rintro rfl
        exact ⟨_, rfl, rfl⟩
      · rintro ⟨p, rfl, rfl⟩
        rfl
    · next hge =>
      rw [or_iff_right fun h => hn h.1, and_iff_right hn, Option.map_eq_some_iff]
      refine ⟨nofun, ?_⟩
      rintro ⟨p, -, rfl⟩
      exact absurd p.isLt hge

theorem readAssetConfig_iff (fs : List Byte) {config : AssetConfig} : readAssetConfig fs = some config
    ↔ Kind.ofCode (byteAt fs 2) = some config.kind ∧ readParentRef (wordAt fs 3) = some config.parent
      ∧ readLoopProfileRef (byteAt fs 7) = some config.loopProfile ∧ byteAt fs 6 = config.faultProfile.val
      ∧ (config.kind = .loop ↔ config.loopProfile.isSome = true) ∧ config.weight = max 1 (byteAt fs 5) := by
  unfold readAssetConfig
  obtain ⟨k, parent, weight, profile, loopProfile⟩ := config
  cases Kind.ofCode (byteAt fs 2) with
  | none => simp
  | some k' =>
    cases readParentRef (wordAt fs 3) with
    | none => simp
    | some parent' =>
      cases readLoopProfileRef (byteAt fs 7) with
      | none => simp
      | some loopProfile' =>
        dsimp only
        by_cases hfp : byteAt fs 6 < 16
        · rw [dif_pos hfp]
          by_cases hloop : k' = .loop ↔ loopProfile'.isSome = true
          · rw [if_pos hloop]
            simp only [Option.some.injEq, AssetConfig.mk.injEq, Fin.ext_iff]
            constructor
            · rintro ⟨rfl, rfl, rfl, hp, rfl⟩
              exact ⟨rfl, rfl, rfl, hp, hloop, rfl⟩
            · rintro ⟨rfl, rfl, rfl, hp, -, rfl⟩
              exact ⟨rfl, rfl, rfl, hp, rfl⟩
          · rw [if_neg hloop]
            refine ⟨nofun, ?_⟩
            rintro ⟨hk, -, hlp, -, hiff, -⟩
            cases hk
            cases hlp
            exact absurd hiff hloop
        · rw [dif_neg hfp]
          refine ⟨nofun, ?_⟩
          rintro ⟨-, -, -, hp, -⟩
          exact absurd (hp ▸ profile.isLt) hfp

section
variable (hi lo kind phi plo w fp lp : Byte) (fs : List Byte)

theorem readAssetConfig_eq_some {config : AssetConfig} :
    readAssetConfig (hi :: lo :: kind :: phi :: plo :: w :: fp :: lp :: fs) = some config
      ↔ Kind.ofCode kind.toNat = some config.kind ∧ readParentRef (256 * phi.toNat + plo.toNat) = some config.parent
        ∧ readLoopProfileRef lp.toNat = some config.loopProfile ∧ fp.toNat = config.faultProfile.val
        ∧ (config.kind = .loop ↔ config.loopProfile.isSome = true) ∧ config.weight = max 1 w.toNat :=
  readAssetConfig_iff _

/-- A field out of range refuses the LOAD (R3). -/
theorem readAssetConfig_refused {p : Nat} (hp : p = 256 * phi.toNat + plo.toNat)
    (h : 5 < kind.toNat ∨ 15 < fp.toNat ∨ (p ≠ 0xFFFF ∧ 2047 < p) ∨ (kind = 4 ∧ 7 < lp.toNat) ∨ (kind ≠ 4 ∧ lp ≠ 0xFF)) :
    readAssetConfig (hi :: lo :: kind :: phi :: plo :: w :: fp :: lp :: fs) = none := by
  refine Option.eq_none_iff_forall_ne_some.2 fun config hread => ?_
  obtain ⟨hk, hpar, hlp, hfp, hloop, -⟩ := (readAssetConfig_eq_some hi lo kind phi plo w fp lp fs).1 hread
  rw [← hp, readParentRef_eq_some] at hpar
  rw [readLoopProfileRef_eq_some] at hlp
  have code := Kind.code_of_ofCode hk
  have isLoop : kind = 4 ↔ config.kind = .loop := by
    rw [← Kind.code_eq_four, code]
    exact BitVec.toNat_inj.symm
  have noProfile : lp = 0xFF ↔ lp.toNat = 0xFF := BitVec.toNat_inj.symm
  rcases h with h | h | ⟨h, h'⟩ | ⟨h, h'⟩ | ⟨h, h'⟩
  · have := config.kind.code_le
    omega
  · have := config.faultProfile.isLt
    omega
  · rcases hpar with ⟨he, -⟩ | ⟨-, hle, -⟩
    · exact h he
    · omega
  · rcases hlp with ⟨-, he⟩ | ⟨-, he⟩
    · rw [he] at hloop
      cases hloop.1 (isLoop.1 h)
    · obtain ⟨q, -, hq⟩ := Option.map_eq_some_iff.1 he
      have := q.isLt
      omega
  · rcases hlp with ⟨he, -⟩ | ⟨-, he⟩
    · exact h' (noProfile.2 he)
    · obtain ⟨q, hq, -⟩ := Option.map_eq_some_iff.1 he
      exact h (isLoop.2 (hloop.2 (by rw [hq]; rfl)))

end

/-! ## The checks behind the fields (R4, R5, R8, R9) -/

theorem State.parentPresent_eq_false {s : State} {parent : Option Nat} :
    s.parentPresent parent = false ↔ ∃ q ∈ parent, s.asset? q = none := by
  cases parent <;> simp [State.parentPresent]

theorem editNeedsMaintain_iff {old : Option Asset} {config : AssetConfig} : editNeedsMaintain old config = true
    ↔ ∃ x ∈ old, x.config.kind ≠ config.kind ∨ x.config.parent ≠ config.parent := by
  cases old <;> simp [editNeedsMaintain]

theorem State.parentConflict_iff {s : State} {a : Nat} {parent : Option Nat} :
    s.parentConflict a (s.asset? a) parent = true ↔ ∃ q ∈ parent, s.parentOf a ≠ some q ∧
      (q = a ∨ q ∈ s.descendantsOf a ∨ 6 < s.depthOf q + s.heightOf a) := by
  cases parent with
  | none => simp [State.parentConflict]
  | some p =>
    change (if s.parentOf a = some p then false else _) = true ↔ _
    by_cases hp : s.parentOf a = some p <;> simp [hp, Config.maxDepth]

theorem State.kindConflict_iff {s : State} {a : Nat} {kind : Kind} : s.kindConflict a (s.asset? a) kind = true
    ↔ ∃ x ∈ s.asset? a, x.config.kind ≠ kind ∧
      ((kind ≠ .cabinet ∧ ∃ e ∈ s.outstations, e.2.config.link = some a)
        ∨ (kind ≠ .loop ∧ ∃ e ∈ s.points, e.2.countAsset = some a)) := by
  have link : s.isLinkAsset a = true ↔ ∃ e ∈ s.outstations, e.2.config.link = some a := by simp [State.isLinkAsset]
  cases s.asset? a <;> simp [State.kindConflict, link]

/-- Settles O11. -/
theorem assetLoadChecks : Obligations.AssetLoadChecks := by
  intro s addr tag hi lo kind phi plo w fp lp fs a p h hm ha hp
  have loaded (fs : List Byte) : exec (.assetLoad addr (.coded tag fs)) s = .next (s.answer ⟨addr, tag⟩ (assetLoad fs s)) :=
    tableEdit_own h hm fs assetLoad
  have key (ha' : a ≤ 2047) (fs : List Byte) : assetKey (hi :: lo :: fs) = .ok a := by
    rw [assetKey_cons, ← ha, if_pos ha']
  refine ⟨loaded [], loaded [hi], fun hout => (loaded _).trans (congrArg _ ?_), fun hin hl =>
    (loaded _).trans (congrArg _ ?_), fun hin hbad => (loaded _).trans (congrArg _ ?_),
    fun config hin hk hfp hpar hpp hw hlp hloop => (loaded _).trans (congrArg _ ?_)⟩
  · rw [assetLoad, assetKey_cons, ← ha, if_neg (Nat.not_le.2 hout), State.answer_error]
  · rw [assetLoad, key hin]
    dsimp only
    rw [if_pos (by simp only [List.length_cons]; omega), State.answer_error]
  · rw [assetLoad, key hin, readAssetConfig_refused hi lo kind phi plo w fp lp fs hp hbad]
    dsimp only
    rw [ite_self, State.answer_error]
  · have read := (readAssetConfig_eq_some hi lo kind phi plo w fp lp fs (config := config)).2 (by
      refine ⟨by rw [hk]; exact config.kind.ofCode_code, ?_, ?_, hfp, by rw [Option.isSome_iff_ne_none]; exact hloop, hw⟩
      · rw [← hp, readParentRef_eq_some, hpar]
        by_cases he : p = 0xFFFF
        · exact .inl ⟨he, if_pos he⟩
        · exact .inr ⟨he, hpp.resolve_right he, if_neg he⟩
      · rw [readLoopProfileRef_eq_some]
        by_cases he : lp = 0xFF
        · rw [if_pos he, Option.map_eq_none_iff] at hlp
          exact .inl ⟨by rw [he]; rfl, hlp⟩
        · rw [if_neg he] at hlp
          exact .inr ⟨fun hn => he (BitVec.toNat_inj.1 hn), hlp⟩)
    rw [assetLoad, key hin, read]
    dsimp only
    rw [if_neg (by simp)]
    simp only [apply_ite (s.answer _), State.answer_error, State.answer_ok]
    refine if_congr ?_ rfl (if_congr (and_congr Iff.rfl editNeedsMaintain_iff) rfl
      (if_congr State.parentConflict_iff rfl (if_congr State.kindConflict_iff rfl rfl)))
    rw [Bool.not_eq_true', State.parentPresent_eq_false]

end Sys2Proof.Machine
end

section
/-! PROOFS. The directives over fault records: LIST and FAULT (O20), ACK (O23), CLOSE (O24). -/

namespace Sys2Proof.Machine

/-! ## LIST and FAULT (R121, R151) -/

theorem execList_at {s : State} {addr : Byte} (h : s.Takes addr) (req : Request) :
    exec (.list addr req) s = .next (s.report ⟨addr, req.tag⟩ (listFaults req.fields s)) := by
  delta exec execList
  exact directive_own h.1 h.2 req.tag _

theorem State.report_faultReport (s : State) (dest : ReplyTo) (id : Nat) : s.report dest (s.faultReport id) =
    match s.records.get? id with
    | none => s.reply dest .noSuch []
    | some r => s.reply dest .done (s.faultBytes id r) := by
  unfold State.faultReport
  cases s.records.get? id <;> rfl

/-- Settles O20. -/
theorem listReportsRanks : Obligations.ListReportsRanks := by
  intro s addr tag fs h listed summary report
  have reported (id : Nat) : s.report ⟨addr, tag⟩ (s.faultReport id) = report id := by
    rw [State.report_faultReport]
    rfl
  refine ⟨execList_at h .empty, (execList_at h (.tagged tag fs)).trans (congrArg _ ?_),
    (tableRead_own h fs faultById).trans (congrArg _ ?_), (tableRead_own h fs faultByAsset).trans (congrArg _ ?_)⟩
  · change s.report ⟨addr, tag⟩ (listFaults fs s) = _
    rw [listFaults]
    simp only [apply_ite (s.report _), State.report_error, State.report_ok]
    rfl
  · rw [faultById, apply_ite (s.report _), State.report_error, reported]
  · rw [faultByAsset, assetKey]
    by_cases hl : fs.length < 2
    · rw [if_pos hl, if_pos hl, State.report_error]
    · rw [if_neg hl, if_neg hl]
      by_cases hw : wordAt fs 0 < Config.assetCapacity
      · rw [if_pos hw, if_neg (by simp only [Config.assetCapacity] at hw; omega)]
        dsimp only
        cases s.faultIdOf (wordAt fs 0) with
        | none => rfl
        | some id => exact reported id
      · rw [if_neg hw, if_pos (by simp only [Config.assetCapacity] at hw; omega), State.report_error]

/-! ## ACK (R114 to R116, R156) -/

theorem Table.adjust_adjust {α : Type} (t : Table α) (k : Nat) (f g : α → α) :
    (t.adjust k f).adjust k g = t.adjust k fun x => g (f x) := by
  rw [Table.adjust_eq_mapAll, Table.adjust_eq_mapAll, Table.adjust_eq_mapAll, Table.mapAll, Table.mapAll, Table.mapAll,
    List.map_map]
  refine List.map_congr_left fun e _ => ?_
  by_cases he : e.1 = k <;> simp [he]

theorem State.sendChanged_eq {s : State} {id : Nat} {r : FaultRecord} (h : s.records.get? id = some r) :
    s.sendChanged id = { s with
      records := s.records.adjust id fun r => { r with changeDue := false },
      trunk := s.trunk.place ⟨s.trunk.node, .notice (.changed (r.summary id))⟩ } := by
  rw [State.sendChanged, h]
  rfl

theorem State.acknowledge_opened {s : State} {id : Nat} {r : FaultRecord} (h : s.records.get? id = some r)
    (ho : r.state = .opened) (console : Nat) : s.acknowledge id r console = ({ s with
      records := s.records.adjust id fun r => { r with state := .acked, console := some console, changeDue := false },
      trunk := s.trunk.place ⟨s.trunk.node, .notice (.changed ({ r with state := .acked }.summary id))⟩ }
        : State).settleBeacons := by
  have held : (s.adjustRecord id fun r => { r with state := .acked, console := some console }).records.get? id
      = some { r with state := .acked, console := some console } := by
    rw [State.adjustRecord, State.setRecords_records, Table.get?_adjust, if_pos rfl, h]
    rfl
  rw [State.acknowledge, ho]
  dsimp only
  rw [State.sendChanged_eq held, State.adjustRecord, State.setRecords_records, Table.adjust_adjust]
  rfl

theorem ackFault_eq {s : State} (hm : s.mode ≠ .entering) (fs : List Byte) : ackFault fs s =
    if fs.length < 3 then .error .badEntry
    else if ¬(1 ≤ byteAt fs 2 ∧ byteAt fs 2 ≤ 15) then .error .badEntry
    else match s.records.get? (wordAt fs 0) with
      | none => .error .noSuch
      | some r => .ok (s.acknowledge (wordAt fs 0) r (byteAt fs 2)) := by
  rw [ackFault, if_neg hm]
  exact if_congr Iff.rfl rfl (if_congr (by omega) rfl rfl)

theorem execAck_at {s : State} {addr : Byte} (h : s.Takes addr) (req : Request) :
    exec (.ack addr req) s = .next (s.answer ⟨addr, req.tag⟩ (ackFault req.fields s)) := by
  delta exec execAck
  exact directive_own h.1 h.2 req.tag _

/-- Settles O23. -/
theorem ackAcknowledges : Obligations.AckAcknowledges := by
  intro s addr tag fs h hm
  refine ⟨(execAck_at h .empty).trans (congrArg _ ?_), (execAck_at h (.tagged tag fs)).trans (congrArg _ ?_)⟩
  · rw [ackFault_eq hm]
    rfl
  · change s.answer ⟨addr, tag⟩ (ackFault fs s) = _
    rw [ackFault_eq hm]
    simp only [apply_ite (s.answer _), State.answer_error]
    refine if_congr Iff.rfl rfl (if_congr Iff.rfl rfl ?_)
    cases hr : s.records.get? (wordAt fs 0) with
    | none => rfl
    | some r =>
      dsimp only
      cases ho : r.state with
      | acked => rw [State.acknowledge, ho, State.answer_ok, if_pos rfl]
      | opened => rw [State.acknowledge_opened hr ho, State.answer_ok, if_neg nofun]

/-! ## CLOSE (R117, R118, R74) -/

theorem State.closeRecord_eq (s : State) (id a : Nat) : s.closeRecord id a = ({ s with
    assets := s.assets.adjust a fun x => { x with integrator := 0, health := .healthy, faultId := none },
    records := s.records.del id,
    trunk := s.trunk.place ⟨s.trunk.node, .notice (.cleared id a true)⟩,
    walkList :=
      if s.childrenOf a = [] then s.walkList
      else queueEntry s.walkList a .release } : State).serveWaiting.settleBeacons := by
  have children : (s.adjustAsset a fun x => { x with integrator := 0, health := .healthy }).childrenOf a = s.childrenOf a :=
    State.childrenOf_of_tree (s.tree_adjustAsset a (f := fun x => { x with integrator := 0, health := .healthy })
      fun _ => rfl) a
  rw [State.closeRecord, State.clearRecord_eq, children, State.adjustAsset, State.setAssets_assets, Table.adjust_adjust]
  rfl

theorem closeFault_eq {s : State} (hm : s.mode ≠ .entering) (fs : List Byte) : closeFault fs s =
    if fs.length < 2 then .error .badEntry
    else if s.mode ≠ .run then .error .badMode
    else match s.records.get? (wordAt fs 0) with
      | none => .error .noSuch
      | some r => .ok (s.closeRecord (wordAt fs 0) r.asset) := by
  rw [closeFault]
  exact if_neg hm

theorem execClose_at {s : State} {addr : Byte} (h : s.Takes addr) (req : Request) :
    exec (.close addr req) s = .next (s.answer ⟨addr, req.tag⟩ (closeFault req.fields s)) := by
  delta exec execClose
  exact directive_own h.1 h.2 req.tag _

/-- Settles O24. -/
theorem closeRemovesRecord : Obligations.CloseRemovesRecord := by
  intro s addr tag fs h hm
  refine ⟨(execClose_at h .empty).trans (congrArg _ ?_), (execClose_at h (.tagged tag fs)).trans (congrArg _ ?_)⟩
  · rw [closeFault_eq hm]
    rfl
  · change s.answer ⟨addr, tag⟩ (closeFault fs s) = _
    rw [closeFault_eq hm]
    simp only [apply_ite (s.answer _), State.answer_error]
    refine if_congr Iff.rfl rfl (if_congr Iff.rfl rfl ?_)
    cases s.records.get? (wordAt fs 0) with
    | none => rfl
    | some r =>
      dsimp only
      rw [State.answer_ok, State.closeRecord_eq]

end Sys2Proof.Machine
end

section
/-! PROOFS. DOWNLINK and RESYNC (O31), STATUS (O32) and the transmitter (O33). -/

namespace Sys2Proof.Machine

/-! ## DOWNLINK and RESYNC (R35) -/

section
variable {s : State} {addr : Byte} (h : s.Takes addr)
include h

theorem execDownlink_at (req : Request) : exec (.downlink addr req) s
    = .next (match downlink ⟨addr, req.tag⟩ req.fields s with
      | .error code => s.reply ⟨addr, req.tag⟩ code []
      | .ok t => t) := by
  delta exec execDownlink
  exact directive_own h.1 h.2 req.tag _

theorem execResync_at (req : Request) :
    exec (.resync addr req) s = .next (s.answer ⟨addr, req.tag⟩ (resync req.fields s)) := by
  delta exec execResync
  exact directive_own h.1 h.2 req.tag _

/-- A key that fails its check refuses both directives alike. -/
theorem lineDirective_refused (hm : s.mode ≠ .entering) {req : Request} {code : ReplyCode}
    (hk : keyByte req.fields 0 127 = .error code) :
    ∀ c ∈ [Instr.downlink addr req, .resync addr req], exec c s = .next (s.reply ⟨addr, req.tag⟩ code []) := by
  simp only [List.forall_mem_cons, List.not_mem_nil, false_imp_iff, implies_true, and_true]
  refine ⟨(execDownlink_at h req).trans (congrArg _ ?_), (execResync_at h req).trans (congrArg _ ?_)⟩
  · rw [downlink, if_neg hm, hk]
  · rw [resync, if_neg hm, hk, State.answer_error]

end

theorem unitOf_eq {o : Nat} {k : Fin 4} (h : o / 32 = k.val) : unitOf o = k := by
  refine Fin.ext ?_
  change o / 32 % 4 = k.val
  omega

/-- Settles O31. -/
theorem downlinkAndResync : Obligations.DownlinkAndResync := by
  intro s addr tag o payload k h hm
  refine ⟨lineDirective_refused h hm rfl, lineDirective_refused h hm rfl, fun ho => lineDirective_refused h hm ?_, fun ho =>
    (execResync_at h _).trans (congrArg _ ?_), fun hk => (execDownlink_at h _).trans (congrArg _ ?_)⟩
  · exact (keyByte_cons o payload 127).trans (if_neg (by omega))
  · change s.answer ⟨addr, tag⟩ (resync (o :: payload) s) = _
    rw [resync, if_neg hm, keyByte_cons, if_pos ho]
    dsimp only
    rw [apply_ite (s.answer _), State.answer_error, State.answer_ok]
    exact if_congr Option.isNone_iff_eq_none rfl rfl
  · change (match downlink ⟨addr, tag⟩ (o :: payload) s with
      | .error code => s.reply ⟨addr, tag⟩ code []
      | .ok t => t) = _
    have ho : o.toNat ≤ 127 := by have := k.isLt; omega
    rw [downlink, if_neg hm, keyByte_cons, if_pos ho]
    simp only [List.drop_one, List.tail_cons, unitOf_eq hk, Option.isNone_iff_eq_none, Config.downlinkCapacity]
    split_ifs <;> rfl

/-! ## STATUS (R193, R198) -/

@[simp] theorem length_be8 (n : Nat) : (be8 n).length = 1 := rfl

@[simp] theorem length_be16 (n : Nat) : (be16 n).length = 2 := rfl

@[simp] theorem length_be32 (n : Nat) : (be32 n).length = 4 := rfl

@[simp] theorem length_be16Absent (n : Option Nat) : (be16Absent n).length = 2 := rfl

@[simp] theorem length_beFlag (b : Bool) : (beFlag b).length = 1 := by
  cases b <;> rfl

@[simp] theorem LineCounters.length_bytes (c : LineCounters) : c.bytes.length = 12 := rfl

@[simp] theorem State.length_walkBytes (s : State) : s.walkBytes.length = 3 := by
  unfold State.walkBytes
  split <;> simp

theorem State.length_statusBytes (s : State) : s.statusBytes.length = 82 := by
  simp only [State.statusBytes, List.length_append, length_be8, length_be16, length_be32, length_be16Absent, length_beFlag,
    LineCounters.length_bytes, State.length_walkBytes]

/-- Settles O32. -/
theorem statusReports : Obligations.StatusReports := by
  intro s addr tag h counters data
  have bytes : s.statusBytes = data := by
    simp only [State.statusBytes, State.walkBytes, LineCounters.bytes, State.openRecords, State.pendingPoints,
      List.append_assoc, data, counters] <;> rfl
  refine ⟨bytes ▸ s.length_statusBytes, ?_, ?_⟩
  · delta exec execStatus
    refine (directive_own h.1 h.2 tag _).trans (congrArg _ ?_)
    rw [bytes]
    rfl
  · delta exec execStatusClear
    refine (directive_own h.1 h.2 tag _).trans (congrArg _ ?_)
    rw [bytes]
    rfl

/-! ## The transmitter (R188, R190, R195, R196) -/

theorem Trunk.begun_idle {t : Trunk} {f : TrunkFrame} {rest : List TrunkFrame} (hs : t.sending = none)
    (hw : t.waiting = f :: rest) (storm : Bool) : t.begun storm =
      { t with waiting := rest, sending := some { frame := f, lost := t.lost, storm := storm, slot := true }, lost := false } := by
  rw [Trunk.begun, hs, hw]

theorem Trunk.begun_busy {t : Trunk} (h : t.sending ≠ none ∨ t.waiting = []) (storm : Bool) : t.begun storm = t := by
  unfold Trunk.begun
  split
  · next hs hw =>
    rcases h with h | h
    · exact absurd hs h
    · rw [hw] at h
      cases h
  · rfl

/-- Settles O33. -/
theorem transmitterStampsHeader : Obligations.TransmitterStampsHeader := by
  intro s f rest h
  have begin_ : exec .transmitBegin s = .next (s.setTrunk (s.trunk.begun s.storm.on)) := by
    delta exec execTransmitBegin
    exact unlessHeld_free h _
  have complete : exec .transmitComplete s = .next (s.setTrunk { s.trunk with sending := none }) := by
    delta exec execTransmitComplete
    exact unlessHeld_free h _
  refine ⟨fun hs hw => ?_, fun hb => ?_, complete, fun _ => rfl, ?_, fun k => ⟨fun hk => ?_, fun t x ht hp hx => ?_⟩⟩
  · rw [begin_, Trunk.begun_idle hs hw]
    rfl
  · rw [begin_, Trunk.begun_busy hb]
    rfl
  · refine ⟨fun tag data c hc => ?_, fun c hc m hm => ?_, fun x => ⟨⟨rfl, rfl⟩, ⟨rfl, rfl⟩⟩, fun i j => ⟨⟨rfl, rfl⟩, ⟨rfl, rfl⟩,
      ⟨rfl, rfl⟩, fun c hc => ?_, ⟨rfl, rfl⟩, ⟨rfl, rfl⟩, fun c hc => ?_⟩, fun o rs => ⟨rfl, ?_⟩⟩
    · fin_cases hc <;> exact ⟨rfl, rfl⟩
    · fin_cases hc <;> fin_cases hm <;> exact ⟨rfl, rfl⟩
    · fin_cases hc <;> exact ⟨rfl, rfl⟩
    · fin_cases hc <;> exact ⟨⟨rfl, rfl⟩, ⟨rfl, rfl⟩⟩
    · refine congrArg (fun f => be8 o ++ be8 rs.length ++ rs.flatMap f) (funext fun r => ?_)
      obtain ⟨word, count⟩ := r
      cases count <;> rfl
  · rw [State.lineFrame]
    rcases hk with hk | ⟨t, ht, hp⟩
    · rw [hk]
    · rw [Option.mem_def.1 ht]
      exact if_pos hp
  · rw [State.lineFrame, ht]
    dsimp only
    rw [if_neg hp, hx, Option.map_some]
    cases t.kind with
    | sweep full | check full => cases full <;> rfl
    | order e => rfl

end Sys2Proof.Machine
end

section
/-! PROOFS. Time, modes and restarts: TIME (O25), MODE (O26, O27), the restarts (O28, O29) and power-on (O30). -/

namespace Sys2Proof.Machine

/-! ## Directives taken on the group address -/

section
variable {s : State} {addr : Byte}

/-- Taken on an own or the group address, with a reply owed on an own address alone (R183). -/
theorem groupDirective_taken (h : s.resetHeld = false) (ha : s.isOwn addr = true ∨ addr = groupAddress) (tag : Byte)
    (f : Option ReplyTo → State → State) :
    groupDirective addr tag s f = .next (f (if s.isOwn addr then some ⟨addr, tag⟩ else none) s) := by
  cases hown : s.isOwn addr with
  | true => exact groupDirective_own h hown tag f
  | false =>
    obtain rfl : addr = groupAddress := ha.resolve_left (by rw [hown]; nofun)
    exact groupDirective_group h hown tag f

theorem State.replyIfOwed_ite (t : State) (own : Bool) (dest : ReplyTo) (code : ReplyCode) :
    t.replyIfOwed (if own = true then some dest else none) code = if own = true then t.reply dest code [] else t := by
  cases own <;> rfl

theorem TickFrame.isOwn {s t : State} (h : TickFrame s t) (addr : Byte) : t.isOwn addr = s.isOwn addr := by
  rw [State.isOwn, State.isOwn, h.node, h.alternate]

/-- Work done before the event is done once: a directive that begins with it may as well find it done. -/
theorem groupDirective_finishOwed {f : Option ReplyTo → State → State} {c : Instr} {tag : Byte}
    (h : s.resetHeld = false) (ha : s.isOwn addr = true ∨ addr = groupAddress)
    (hc : ∀ s, exec c s = groupDirective addr tag s f) (hf : ∀ dest, f dest s = f dest s.finishOwed) :
    exec c s = exec c s.finishOwed := by
  have frame := tickFrame_finishOwed s
  have h' : s.finishOwed.resetHeld = false := frame.resetHeld.trans h
  have ha' : s.finishOwed.isOwn addr = true ∨ addr = groupAddress := by rwa [frame.isOwn]
  rw [hc, hc, groupDirective_taken h ha, groupDirective_taken h' ha', frame.isOwn, hf]

@[simp] theorem State.finishOwed_finishOwed (s : State) : s.finishOwed.finishOwed = s.finishOwed :=
  State.finishOwed_of_nil s.finishOwed_owed

/-! ## TIME -/

/-- Settles O25. -/
theorem timeSetsClock : Obligations.TimeSetsClock := by
  intro s addr tag fs h ha answered set
  have taken (hl : 3 ≤ fs.length) (hd : wordAt fs 0 ≤ 1439) (hs : byteAt fs 2 ≤ 59) :
      ¬(fs.length < 3 ∨ 1439 < wordAt fs 0 ∨ 59 < byteAt fs 2) := by omega
  have answer (t : State) (code : ReplyCode) : t.replyIfOwed (if s.isOwn addr = true then some ⟨addr, tag⟩ else none) code
      = answered t code := t.replyIfOwed_ite _ _ code
  have exec_time (hl : 3 ≤ fs.length) (hd : wordAt fs 0 ≤ 1439) (hs : byteAt fs 2 ≤ 59) (ho : s.owed = []) :
      exec (.time addr (.tagged tag fs)) s = .next (answered (s.takeTime (wordAt fs 0) (byteAt fs 2)) .done) := by
    delta exec execTime
    refine (groupDirective_taken h ha _ _).trans (congrArg _ ?_)
    refine (if_neg (taken hl hd hs)).trans ((answer _ _).trans ?_)
    rw [State.finishOwed_of_nil ho]
    rfl
  refine ⟨?_, fun hbad => ?_, fun hl hd hs => ?_, fun hl hd hs ho => ⟨fun hle => ?_, fun hlt => ?_⟩⟩
  · delta exec execTime
    exact (groupDirective_taken h ha _ _).trans (congrArg _ (s.replyIfOwed_ite _ _ _))
  · delta exec execTime
    refine (groupDirective_taken h ha _ _).trans (congrArg _ ?_)
    exact (if_pos hbad).trans (answer _ _)
  · refine groupDirective_finishOwed h ha (fun _ => by delta exec execTime; rfl) fun dest => ?_
    refine (if_neg (taken hl hd hs)).trans (Eq.trans ?_ (if_neg (taken hl hd hs)).symm)
    exact congrArg (fun t : State => (t.takeTime _ _).replyIfOwed dest .done) s.finishOwed_finishOwed.symm
  · rw [exec_time hl hd hs ho, State.takeTime, if_neg (Nat.not_lt.mpr hle)]
    rfl
  · refine ⟨_, freeOrder_perm s.freeCount _, ?_⟩
    rw [exec_time hl hd hs ho, State.takeTime, if_pos hlt]
    rfl

/-! ## MODE RUN -/

/-- An urgency reads the configuration of the record's asset and the profiles, nothing else. -/
theorem State.refreshed_congr {s t : State} (hp : t.faultProfiles = s.faultProfiles)
    (ha : ∀ a, (t.asset? a).map (·.config) = (s.asset? a).map (·.config)) (r : FaultRecord) :
    t.refreshed r = s.refreshed r := by
  have same := ha r.asset
  unfold State.refreshed State.faultProfile
  rw [hp]
  cases ht : t.asset? r.asset <;> cases hs : s.asset? r.asset <;> simp_all

/-- Steps 1 to 4 of the entry to RUN, field by field. -/
theorem State.beginEntering_eq (s : State) (owed : Option ReplyTo) :
    s.beginEntering owed =
      { s with
        mode := .entering,
        rebuild := some { last := none, owed := owed },
        outstations := s.outstations.mapAll fun _ x => { x with fullDue := true },
        assets := s.assets.mapAll fun _ x => { x with window := x.window.map fun w => { w with gap := true } },
        walk := none,
        walkList := [],
        storm := { s.storm with on := false, calm := 0 },
        records := s.records.mapAll fun _ r => s.refreshed { r with absorbed := 0 } } := by
  have zeroed (t : State) (hp : t.faultProfiles = s.faultProfiles) (ha : t.assets = s.gapEveryLoop.assets) :
      t.zeroAbsorbed = t.setRecords (t.records.mapAll fun _ r => s.refreshed { r with absorbed := 0 }) := by
    refine congrArg t.setRecords (Table.mapAll_congr fun e _ => State.refreshed_congr hp (fun a => ?_) _)
    rw [State.asset?, ha, State.gapEveryLoop, State.setAssets_assets, Table.get?_mapAll, Option.map_map]
    rfl
  unfold State.beginEntering
  rw [zeroed]
  all_goals rfl

theorem State.tree_beginEntering (s : State) (owed : Option ReplyTo) : (s.beginEntering owed).tree = s.tree :=
  State.tree_of_mapAll (fun _ x => x.withGap) rfl fun _ _ => rfl

theorem State.rebuildNext_beginEntering (s : State) (owed : Option ReplyTo) :
    (s.beginEntering owed).rebuildNext none = s.forest.head? := by
  rw [State.rebuildNext, State.forest_of_tree (s.tree_beginEntering owed)]

theorem State.startRun_of_roots {s : State} (h : s.roots ≠ []) (owed : Option ReplyTo) :
    s.startRun owed = (s.beginEntering owed).settleBeacons := by
  have first : (s.forest.head?).isNone = false := by
    obtain ⟨r, rest, hr⟩ := List.exists_cons_of_ne_nil h
    rw [State.forest, hr]
    rfl
  rw [State.startRun, s.rebuildNext_beginEntering, first]
  rfl

theorem State.startRun_of_no_assets {s : State} (h : s.assets = []) (owed : Option ReplyTo) :
    s.startRun owed = ((s.beginEntering owed).enterRun owed).settleBeacons := by
  have none : (s.forest.head?).isNone = true := by
    rw [State.forest, State.roots, h]
    rfl
  rw [State.startRun, s.rebuildNext_beginEntering, none]
  rfl

theorem State.settleBeacons_replyIfOwed (s : State) (dest : Option ReplyTo) (code : ReplyCode) :
    (s.replyIfOwed dest code).settleBeacons = s.settleBeacons.replyIfOwed dest code := by
  cases dest <;> rfl

/-- Settles O26. -/
theorem modeRunBegins : Obligations.ModeRunBegins := by
  intro s addr tag fs h ha answered prepared
  have answer (t : State) (code : ReplyCode) : t.replyIfOwed (if s.isOwn addr = true then some ⟨addr, tag⟩ else none) code
      = answered t code := t.replyIfOwed_ite _ _ code
  have exec_maintain (hm : s.mode = .maintain) (ho : s.owed = []) : exec (.modeRun addr (.coded tag fs)) s
      = .next (s.startRun (if s.isOwn addr then some ⟨addr, tag⟩ else none)) := by
    delta exec execModeRun
    refine (groupDirective_taken h ha _ _).trans (congrArg _ ?_)
    rw [hm]
    exact congrArg (State.startRun · _) (State.finishOwed_of_nil ho)
  refine ⟨fun hm => ?_, fun hm => ?_, fun hm => ?_, fun hm ho hr => ?_, fun hm ho hassets => ?_⟩
  · delta exec execModeRun
    refine (groupDirective_taken h ha _ _).trans (congrArg _ ?_)
    rw [hm]
    exact answer _ _
  · delta exec execModeRun
    refine (groupDirective_taken h ha _ _).trans (congrArg _ ?_)
    rw [hm]
    exact answer _ _
  · refine groupDirective_finishOwed h ha (fun _ => by delta exec execModeRun; rfl) fun dest => ?_
    rw [(tickFrame_finishOwed s).mode, hm]
    exact congrArg (State.startRun · _) s.finishOwed_finishOwed.symm
  · rw [exec_maintain hm ho, State.startRun_of_roots hr, State.beginEntering_eq]
  · rw [exec_maintain hm ho, State.startRun_of_no_assets hassets, State.beginEntering_eq, State.enterRun, State.settleBeacons_replyIfOwed, answer]
    rfl

/-! ## MODE MAINTAIN -/

def Downlink.abortedFrame (e : Downlink) : TrunkFrame := ⟨e.addr, .reply e.tag .aborted []⟩

/-- The frames a line that halts places: ABORTED for an ORDER in hand, then for each queued entry (R41). -/
def Line.abortedFrames (l : Line) : List TrunkFrame :=
  if l.settings.personality ≠ .off then
    (match l.transaction with
      | some t => (t.kind.entry.map Downlink.abortedFrame).toList
      | none => []) ++ l.queue.map Downlink.abortedFrame
  else []

/-- A line as the entry to MAINTAIN leaves it (R37, R41). -/
def Line.halted (l : Line) : Line :=
  if l.settings.personality = .off then l else { l with transaction := none, queue := [], received := [] }

/-- The outstation whose transaction a halting line drops, if any. -/
def Line.dropped (l : Line) : Option Nat :=
  if l.settings.personality = .off then none else l.transaction.map fun t => t.outstation

theorem State.foldl_replyAborted_eq (l : List Downlink) (s : State) :
    l.foldl State.replyAborted s = s.setTrunk ((l.map Downlink.abortedFrame).foldl Trunk.place s.trunk) := by
  induction l generalizing s with
  | nil => rfl
  | cons e l ih => exact ih (s.replyAborted e)

theorem State.dropTransaction_eq (s : State) (t : Transaction) :
    s.dropTransaction t = (s.adjustOutstation t.outstation fun x => { x with retry := 0 }).setTrunk
      ((t.kind.entry.map Downlink.abortedFrame).toList.foldl Trunk.place s.trunk) := by
  unfold State.dropTransaction
  cases t.kind <;> rfl

theorem Vector.set_get_self {α : Type} {n : Nat} (v : Vector α n) (k : Fin n) : v.set k.val (v.get k) k.isLt = v :=
  Vector.set_getElem_self k.isLt

/-- A halting line, field by field. -/
theorem State.haltLine_fields (s : State) (k : Fin 4) :
    s.haltLine k = { s with
      lines := s.lines.set k.val (s.line k).halted k.isLt,
      outstations := s.outstations.mapAll fun o x => if (s.line k).dropped = some o then { x with retry := 0 } else x,
      trunk := (s.line k).abortedFrames.foldl Trunk.place s.trunk } := by
  have same : s.outstations.mapAll (fun _ x => x) = s.outstations := Table.mapAll_eq_self fun _ _ => rfl
  unfold State.haltLine Line.abortedFrames Line.halted Line.dropped
  dsimp only
  split
  · next hp =>
    simp only [hp, reduceCtorEq, if_false, same, ne_eq, not_true_eq_false, List.foldl_nil]
    exact congrArg s.setLines (Vector.set_get_self s.lines k).symm
  · next hp =>
    rw [State.foldl_replyAborted_eq]
    cases ht : (s.line k).transaction with
    | none =>
      simp only [Option.map_none, reduceCtorEq, if_false, same, List.nil_append]
      rfl
    | some t =>
      have adjusted : s.outstations.adjust t.outstation (fun x => { x with retry := 0 })
          = s.outstations.mapAll fun o x => if some t.outstation = some o then { x with retry := 0 } else x := by
        rw [Table.adjust_eq_mapAll]
        exact Table.mapAll_congr fun e _ => if_congr (by rw [Option.some.injEq, eq_comm]) rfl rfl
      simp only [State.dropTransaction_eq, List.foldl_append, Option.map_some, ← adjusted]
      rfl

theorem Table.mapAll_mapAll {α : Type} (t : Table α) (f g : Nat → α → α) :
    (t.mapAll f).mapAll g = t.mapAll fun k x => g k (f k x) := by
  simp [Table.mapAll]

/-- Halting several lines, field by field. -/
theorem State.foldl_haltLine {ks : List (Fin 4)} (h : ks.Nodup) (s : State) :
    ks.foldl State.haltLine s = { s with
      lines := Vector.ofFn fun k => if k ∈ ks then (s.line k).halted else s.line k,
      outstations := s.outstations.mapAll fun o x =>
        if ∃ k ∈ ks, (s.line k).dropped = some o then { x with retry := 0 } else x,
      trunk := (ks.flatMap fun k => (s.line k).abortedFrames).foldl Trunk.place s.trunk } := by
  induction ks generalizing s with
  | nil =>
    have lines : Vector.ofFn s.line = s.lines := by
      ext i hi
      simp
      rfl
    have same : s.outstations.mapAll (fun _ x => x) = s.outstations := Table.mapAll_eq_self fun _ _ => rfl
    simp [lines, same]
  | cons k ks ih =>
    obtain ⟨hk, hks⟩ := List.nodup_cons.1 h
    have line (j : Fin 4) : (s.haltLine k).line j = if j = k then (s.line k).halted else s.line j := by
      rw [State.haltLine_fields]
      split
      · next hj => exact hj ▸ s.adjustLine_line_self k Line.halted
      · next hj => exact s.adjustLine_line_of_ne hj Line.halted
    have others (j : Fin 4) (hj : j ∈ ks) : (s.haltLine k).line j = s.line j := by
      rw [line, if_neg]
      exact fun e => hk (e ▸ hj)
    rw [List.foldl_cons, ih hks]
    have dropped (o : Nat) : (∃ j ∈ ks, ((s.haltLine k).line j).dropped = some o) ↔ ∃ j ∈ ks, (s.line j).dropped = some o :=
      exists_congr fun j => and_congr_right fun hj => by rw [others j hj]
    have frames : (ks.flatMap fun j => ((s.haltLine k).line j).abortedFrames) = ks.flatMap fun j => (s.line j).abortedFrames :=
      List.flatMap_congr fun j hj => by rw [others j hj]
    have lines (j : Fin 4) : (if j ∈ ks then ((s.haltLine k).line j).halted else (s.haltLine k).line j)
        = if j ∈ k :: ks then (s.line j).halted else s.line j := by
      rw [line]
      grind
    simp only [dropped, frames, lines]
    simp only [State.haltLine_fields, Table.mapAll_mapAll, List.flatMap_cons, List.foldl_append]
    congr 2
    funext o x
    simp only [List.exists_mem_cons_iff]
    by_cases hkd : (s.line k).dropped = some o <;> simp [hkd]

theorem State.endStorm_eq (s : State) :
    s.endStorm = { s with
      storm := { s.storm with on := false, calm := 0, opens := 0 },
      trunk := (if s.storm.on then [(⟨s.trunk.node, .notice (.storm false .maintain 0)⟩ : TrunkFrame)] else []).foldl
        Trunk.place s.trunk } := by
  unfold State.endStorm
  split <;> rfl

/-- The entry to MAINTAIN, field by field (R177). -/
theorem State.leaveRun_eq (s : State) :
    s.leaveRun = ({ s with
      mode := .maintain,
      lines := s.lines.map Line.halted,
      outstations := s.outstations.mapAll fun o x =>
        if ∃ k : Fin 4, (s.line k).dropped = some o then { x with retry := 0 } else x,
      storm := { s.storm with on := false, calm := 0, opens := 0 },
      trunk := ((s.line 0).abortedFrames ++ (s.line 1).abortedFrames ++ (s.line 2).abortedFrames ++ (s.line 3).abortedFrames
        ++ (if s.storm.on then [(⟨s.trunk.node, .notice (.storm false .maintain 0)⟩ : TrunkFrame)] else [])).foldl
          Trunk.place s.trunk } : State).settleBeacons := by
  have all (k : Fin 4) : k ∈ ([0, 1, 2, 3] : List (Fin 4)) := by
    fin_cases k <;> decide
  have lines : (Vector.ofFn fun k => (s.line k).halted) = s.lines.map Line.halted := by
    ext i hi
    rw [Vector.getElem_ofFn, Vector.getElem_map]
    rfl
  have line (k : Fin 4) : (s.setMode .maintain).line k = s.line k := rfl
  have node (fs : List TrunkFrame) (t : Trunk) : (fs.foldl Trunk.place t).node = t.node := (foldl_place_addresses fs t).1
  have halted := State.foldl_haltLine (ks := [0, 1, 2, 3]) (by decide) (s.setMode .maintain)
  simp only [all, true_and, if_true, List.foldl_cons, List.foldl_nil] at halted
  rw [State.leaveRun, halted, State.endStorm_eq, ← lines]
  simp only [List.flatMap_cons, List.flatMap_nil, List.append_nil, List.foldl_append, State.setMode_trunk, State.setMode_storm,
    line, node]
  rfl

/-- Settles O27. -/
theorem modeMaintainLeavesRun : Obligations.ModeMaintainLeavesRun := by
  intro s addr tag fs h ha answer aborted running abortedOn
  have answered (t : State) (code : ReplyCode) : t.replyIfOwed (if s.isOwn addr = true then some ⟨addr, tag⟩ else none) code
      = { t with trunk := (answer code).foldl Trunk.place t.trunk } := by
    rw [State.replyIfOwed_ite]
    unfold answer
    split <;> rfl
  refine ⟨fun hm => ?_, fun hm => ?_, fun hm => ?_, fun hm ho => ?_⟩
  · delta exec execModeMaintain
    refine (groupDirective_taken h ha _ _).trans (congrArg _ ?_)
    refine Eq.trans ?_ (answered s _)
    rw [hm]
    rfl
  · delta exec execModeMaintain
    refine (groupDirective_taken h ha _ _).trans (congrArg _ ?_)
    refine Eq.trans ?_ (answered s _)
    rw [hm]
    rfl
  · refine groupDirective_finishOwed h ha (fun _ => by delta exec execModeMaintain; rfl) fun dest => ?_
    rw [(tickFrame_finishOwed s).mode, hm]
    exact congrArg (fun t : State => t.leaveRun.replyIfOwed dest .done) s.finishOwed_finishOwed.symm
  · delta exec execModeMaintain
    refine (groupDirective_taken h ha _ _).trans (congrArg _ ?_)
    refine Eq.trans (b := s.finishOwed.leaveRun.replyIfOwed _ .done) (by rw [hm]; rfl) ((answered _ _).trans ?_)
    rw [State.finishOwed_of_nil ho, State.leaveRun_eq]
    have drops (k : Fin 4) (o : Nat) :
        (s.line k).dropped = some o ↔ running k = true ∧ (s.line k).transaction.map (fun t => t.outstation) = some o := by
      unfold running Line.dropped
      grind
    have frames (k : Fin 4) : (s.line k).abortedFrames = abortedOn k := by
      unfold abortedOn running Line.abortedFrames
      cases (s.line k).transaction with
      | none => simp; rfl
      | some t =>
        obtain ⟨kind, -, -, -⟩ := t
        cases kind <;> simp <;> rfl
    simp only [drops, frames, List.foldl_append]
    rfl

end

/-! ## Restarts -/

/-- With nothing learned from the field, ON alone is a source that is true. -/
theorem State.sourceValue_of_unlearned {s : State} (hr : s.records = []) (hs : s.storm.on = false) (hw : s.waiting = [])
    (hc : ∀ e ∈ s.outstations, e.2.comms ≠ .silent) (source : BeaconSource) (argument : Nat) :
    s.sourceValue source argument = decide (source = .on) := by
  cases source with
  | off | on => rfl
  | headUrgency => simp [State.sourceValue, State.dispatchQueue, hr]
  | anyOpen => simp [State.sourceValue, State.openRecords, hr]
  | storm => simpa [State.sourceValue] using hs
  | tableFull => simp [State.sourceValue, hw]
  | lineSilent =>
    simp only [State.sourceValue, reduceCtorEq, decide_false, List.any_eq_false, decide_eq_true_eq, not_and]
    exact fun e he _ => hc e he

/-- The START notice is alone in the emptied queue, and a frame in transmission keeps no slot from it (R191). -/
theorem Trunk.place_restarted (t : Trunk) (f : TrunkFrame) :
    t.restarted.place f = { t with
      waiting := [f], sending := t.sending.map fun x => { x with slot := false }, lost := false, checkFails := 0 } := by
  have room : t.restarted.occupancy < Config.transmitCapacity := by
    unfold Trunk.occupancy Trunk.restarted
    cases t.sending <;> simp [Config.transmitCapacity]
  rw [Trunk.place_of_room room]
  rfl

/-- A beacon that RESTART RUNTIME starts afresh. -/
theorem Beacon.startAfresh_self (b : Beacon) (v : Bool) :
    b.startAfresh v = { b with
      value := v, output := v, latch := v && b.stretch = .latched,
      count := if v then (b.stretch.seconds.map (· + 1)).getD 0 else 0 } :=
  Beacon.startAfresh_eq b b.source b.argument b.stretch v

/-- Settles O28. -/
theorem restartRuntimeKeepsTables : Obligations.RestartRuntimeKeepsTables := by
  intro s addr tag fs h ha mode left
  delta exec execRestartRuntime
  refine (groupDirective_taken h ha _ _).trans (congrArg _ ?_)
  change s.restartRuntime = _
  have points : restartedPoints s.points = Table.mapAll (s.points.filter fun e => e.2.resolved) fun _ p =>
      match p with
      | .status a _ => .status a .unknown
      | .count a _ => .count a none
      | .pending c n => .pending c n :=
    Table.mapAll_congr fun e _ => by cases e.2 <;> rfl
  have started (t : State) (hr : t.records = []) (hs : t.storm.on = false) (hw : t.waiting = [])
      (ho : t.outstations = s.outstations.mapAll fun _ x => x.restarted) :
      t.restartBeacons = t.setBeacons (t.beacons.map fun b =>
        { b with
          value := b.source = .on, output := b.source = .on, latch := b.source = .on && b.stretch = .latched,
          count := if b.source = .on then (b.stretch.seconds.map (· + 1)).getD 0 else 0 }) := by
    have new : ∀ e ∈ t.outstations, e.2.comms ≠ .silent := by
      rw [ho]
      exact Table.forall_mem_mapAll fun e _ => nofun
    unfold State.restartBeacons
    simp only [State.sourceValue_of_unlearned hr hs hw new, Beacon.startAfresh_self, decide_eq_true_eq]
  rw [State.restartRuntime, State.notify]
  dsimp only
  rw [started, State.setBeacons_trunk]
  · rw [Trunk.place_restarted, points]
    rfl
  · rfl
  · rfl
  · rfl
  · rfl

/-- Settles O29. -/
theorem powerOnAndRestartFull : Obligations.PowerOnAndRestartFull := by
  refine fun s addr tag fs => ⟨rfl, fun h ha => ?_⟩
  delta exec execRestartFull
  refine (groupDirective_taken h ha _ _).trans (congrArg _ ?_)
  change s.restartFull = _
  rw [State.restartFull, State.notify]
  dsimp only
  rw [Trunk.place_restarted]
  rfl

/-- Settles O30. -/
theorem resetIsSound : Obligations.ResetIsSound := by
  refine ⟨rfl, rfl, rfl, rfl, rfl, rfl, rfl, fun k => ?_, fun p => ?_, fun p => ?_, rfl, rfl, rfl, rfl, rfl, rfl, rfl,
    fun b => ?_, rfl, ?_, (State.ranged_iff _).1 State.ranged_reset, ?_, ?_, ?_, ?_, ?_, ?_⟩
  · exact Vector.getElem_replicate k.isLt
  · exact Vector.getElem_replicate p.isLt
  · exact Vector.getElem_replicate p.isLt
  · exact Vector.getElem_replicate b.isLt
  · exact ⟨by decide, by decide, by decide, by decide, by rintro e ⟨⟩⟩
  · rintro e ⟨⟩
  · exact ⟨by decide, by rintro e ⟨⟩, by rintro e ⟨⟩, by decide, by rintro e ⟨⟩, fun h => absurd rfl h, by decide, by decide⟩
  · rintro e ⟨⟩
  · rintro e ⟨⟩
  · exact ⟨by rintro e ⟨⟩, fun _ => by rintro e ⟨⟩, by rintro e ⟨⟩, by rintro ⟨⟩⟩
  · exact ⟨by rintro e ⟨⟩, by rintro e ⟨⟩, by rintro e ⟨⟩⟩

end Sys2Proof.Machine
end

section
/-! PROOFS. The ticks (O43) and the minute events of the ranker (O44) and the storm monitor (O46). -/

namespace Sys2Proof.Machine

/-! ## Work that is owed -/

/-- The command by which a block does its work at a tick. -/
def TickWork.row (w : TickWork) : Instr :=
  match w with
  | .line k => .lineSecondWork k
  | .beacon b => .beaconStretchTick b
  | .ranker => .rankerMinuteEvent
  | .windows => .windowCloseEvent
  | .storm => .stormMinuteEvent

section
variable {s : State} (h : s.resetHeld = false)
include h

theorem exec_row (w : TickWork) : exec w.row s = .next (s.doOwed w) := by
  cases w
  all_goals
    delta exec TickWork.row
    exact unlessHeld_free h _

theorem exec_row_of_not_mem {w : TickWork} (hw : w ∉ s.owed) : exec w.row s = .next s := by
  rw [exec_row h, State.doOwed_of_not_mem hw]

theorem exec_row_of_mem {w : TickWork} (hw : w ∈ s.owed) :
    exec w.row s = .next ((s.setOwed (s.owed.erase w)).tickWork w) := by
  rw [exec_row h, State.doOwed_of_mem hw]

theorem foldl_exec_work {run : State → Instr → State} {row : TickWork → Instr}
    
    (hrun : ∀ u w, u.resetHeld = false → run u (row w) = u.doOwed w) (ws : List TickWork) :
    (ws.map row).foldl run s = ws.foldl State.doOwed s := by
  induction ws generalizing s with
  | nil => rfl
  | cons w ws ih =>
    rw [List.map_cons, List.foldl_cons, List.foldl_cons, hrun s w h]
    exact ih ((tickFrame_doOwed s w).resetHeld.trans h)

end

theorem State.finishOwed_of_ne_nil {s : State} (h : s.owed ≠ []) :
    s.finishOwed = { (freeOrder s.freeCount s.owed).foldl State.doOwed s with owed := [], freeCount := s.freeCount + 1 } := by
  have done := s.finishOwed_owed
  unfold State.finishOwed at done ⊢
  split at done
  · next he => exact absurd he h
  · next w rest he =>
    rw [← he] at done ⊢
    exact congrArg (((freeOrder s.freeCount s.owed).foldl State.doOwed s).setFreeCount (s.freeCount + 1)).setOwed done

/-! ## Ticks -/

theorem State.lineSecond_eq (s : State) (k : Fin 4) : s.lineSecond k = { s with
    outstations := s.outstations.mapAll fun o x =>
      if ¬(s.mode = .run ∧ (s.line k).settings.personality = .exception ∧ o / 32 = k.val) then x
      else if x.comms = .silent then { x with countdown := x.countdown - 1, integrityDue := false }
      else { x with integrityDue := x.quietFor (s.line k).settings.g s.runningSecond } } := by
  unfold State.lineSecond
  split
  · next hc =>
    refine congrArg s.setOutstations (Table.mapAll_congr fun e _ => ?_)
    by_cases ho : e.1 / 32 = k.val <;> simp [hc, ho, lineOf, Outstation.secondTick]
  · next hc =>
    have same : s.outstations.mapAll (fun _ x => x) = s.outstations := Table.mapAll_eq_self fun _ _ => rfl
    have off (o : Nat) : ¬(s.mode = .run ∧ (s.line k).settings.personality = .exception ∧ o / 32 = k.val) :=
      fun ⟨hm, hp, _⟩ => hc ⟨hm, hp⟩
    simp only [off, not_false_eq_true, if_true, same]

theorem Beacon.secondTick_eq (b : Beacon) :
    b.secondTick = if b.count = 0 then b else
      { b with count := b.count - 1, output := b.output && (b.count ≠ 1 || b.value) } := by
  obtain ⟨source, argument, stretch, value, output, count, latch⟩ := b
  unfold Beacon.secondTick
  cases value <;> cases output <;> grind

/-- Settles O43. -/
theorem ticksAdvance : Obligations.TicksAdvance := by
  intro s k b h minute ofSecond ofMinute row run
  have hrun (u : State) (w : TickWork) (hu : u.resetHeld = false) : run u (row w) = u.doOwed w := by
    have he : row w = w.row := by cases w <;> rfl
    simp only [run, he, exec_row hu]
  have settled := (tickFrame_finishOwed s).resetHeld.trans h
  have second (ho : s.owed = []) : exec .secondTick s = .next s.tickSecond := by
    delta exec execSecondTick
    rw [unlessHeld_free h, State.finishOwed_of_nil ho]
  refine ⟨State.finishOwed_of_nil, fun ho => ⟨_, (freeOrder_perm s.freeCount s.owed).map row, ?_⟩, ?_, fun ho hlt => ?_,
    fun ho hle => ?_, fun ho => ?_, fun hw => ?_, fun hw => ?_, fun hw => ?_, fun hw => ?_⟩
  · rw [foldl_exec_work h hrun]
    exact State.finishOwed_of_ne_nil ho
  · simp only [List.forall_mem_cons, List.not_mem_nil, false_imp_iff, implies_true, and_true]
    delta exec execSecondTick execMinuteTick
    simp only [unlessHeld_free h, unlessHeld_free settled, State.finishOwed_finishOwed, and_self]
  · rw [second ho, State.tickSecond, if_pos hlt, TimeBase.secondTick, if_pos hlt]
    rfl
  · rw [second ho, State.tickSecond, if_neg (Nat.not_lt.mpr hle), TimeBase.secondTick, if_neg (Nat.not_lt.mpr hle)]
    rfl
  · delta exec execMinuteTick
    rw [unlessHeld_free h, State.finishOwed_of_nil ho]
    rfl
  · exact exec_row_of_not_mem h hw
  · exact exec_row_of_not_mem h hw
  · refine (exec_row_of_mem h hw).trans ?_
    rw [State.tickWork, State.lineSecond_eq]
    rfl
  · refine (exec_row_of_mem h hw).trans ?_
    rw [State.tickWork, State.adjustBeacon, Beacon.secondTick_eq]
    rfl

/-! ## The storm monitor's minute event -/

/-- The evaluation in RUN with every field of its result (R162, R163). -/
theorem Storm.evaluated_eq {m : Storm} (hcalm : m.on = false → m.calm = 0) : m.evaluated =
    if m.on = false then
      if m.entry = 0 ∨ m.opens < m.entry then ({ m with on := false, calm := 0 }, none)
      else ({ m with on := true, calm := 0 }, some .entry)
    else if m.exit ≤ m.opens then ({ m with on := true, calm := 0 }, none)
    else if m.calm + 1 < m.calmPeriod then ({ m with on := true, calm := m.calm + 1 }, none)
    else ({ m with on := false, calm := 0 }, some .calm) := by
  obtain ⟨entry, exit, calmPeriod, on, calm, opens⟩ := m
  unfold Storm.evaluated
  cases on with
  | false =>
    obtain rfl : calm = 0 := hcalm rfl
    grind
  | true => grind

theorem State.stormMinute_of_run {s : State} (hm : s.mode = .run) {m : Storm} {cause : Option StormCause}
    (he : s.storm.evaluated = (m, cause)) :
    s.stormMinute = { s with
      storm := { m with opens := 0 },
      trunk := (cause.toList.map fun c =>
        (⟨s.trunk.node, .notice (.storm m.on c s.storm.opens)⟩ : TrunkFrame)).foldl Trunk.place s.trunk } := by
  rw [State.stormMinute, if_pos hm, he]
  cases cause <;> rfl

/-- Settles O46. -/
theorem stormMinute : Obligations.StormMinute := by
  intro s h hcalm m left
  refine ⟨fun hw => exec_row_of_not_mem h hw, fun hw => (exec_row_of_mem h hw).trans (congrArg _ ?_)⟩
  by_cases hm : s.mode = .run
  · rw [if_neg (not_not.mpr hm), State.tickWork]
    have evaluated := Storm.evaluated_eq hcalm
    have minute {m' : Storm} {cause : Option StormCause} (he : s.storm.evaluated = (m', cause)) :=
      State.stormMinute_of_run (s := s.setOwed (s.owed.erase .storm)) hm he
    split at evaluated
    · next hon =>
      rw [if_pos hon]
      split at evaluated
      · next hc =>
        rw [minute evaluated, if_pos hc]
        rfl
      · next hc =>
        rw [minute evaluated, if_neg hc]
        rfl
    · next hon =>
      rw [if_neg hon]
      split at evaluated
      · next hc =>
        rw [minute evaluated, if_pos hc]
        rfl
      · next hc =>
        rw [if_neg hc]
        split at evaluated
        · next hq =>
          rw [minute evaluated, if_pos hq]
          rfl
        · next hq =>
          rw [minute evaluated, if_neg hq]
          rfl
  · rw [if_pos hm, State.tickWork, State.stormMinute, State.setOwed_mode, if_neg hm]
    rfl

/-! ## The ranker's minute event -/

/-- CHANGED notices for several records, each as it stands, and their flags cleared (R155). -/
theorem State.foldl_sendChanged {l : List (Nat × FaultRecord)} (hn : (l.map Prod.fst).Nodup) (s : State)
    (hl : ∀ e ∈ l, s.records.get? e.1 = some e.2) :
    (l.map Prod.fst).foldl State.sendChanged s = { s with
      records := s.records.mapAll fun id r => if id ∈ l.map Prod.fst then { r with changeDue := false } else r,
      trunk := (l.map fun e => (⟨s.trunk.node, .notice (.changed (e.2.summary e.1))⟩ : TrunkFrame)).foldl
        Trunk.place s.trunk } := by
  induction l generalizing s with
  | nil =>
    have same : s.records.mapAll (fun _ r => r) = s.records := Table.mapAll_eq_self fun _ _ => rfl
    simp [same]
  | cons e l ih =>
    obtain ⟨hne, hn⟩ := List.nodup_cons.1 hn
    have sent := State.sendChanged_eq (hl e List.mem_cons_self)
    have rest : ∀ e' ∈ l, (s.sendChanged e.1).records.get? e'.1 = some e'.2 := by
      intro e' he'
      have other : e'.1 ≠ e.1 := fun heq => hne (heq ▸ List.mem_map_of_mem he')
      rw [sent]
      dsimp only
      rw [Table.get?_adjust, if_neg other]
      exact hl e' (List.mem_cons_of_mem _ he')
    rw [List.map_cons, List.foldl_cons, ih hn _ rest, sent]
    have node (f : TrunkFrame) : (s.trunk.place f).node = s.trunk.node := (foldl_place_addresses [f] s.trunk).1
    simp only [Table.adjust_eq_mapAll, Table.mapAll_mapAll, node, List.map_cons, List.foldl_cons]
    congr 2
    funext id r
    simp only [List.mem_cons]
    by_cases hid : id = e.1
    · simp [hid]
    · rw [if_neg hid]
      exact if_congr (by simp [hid]) rfl rfl

theorem State.escalated_of_asset? {s : State} {r : FaultRecord} {x : Asset} (hx : s.asset? r.asset = some x) :
    s.escalated r =
      let p := s.faultProfile x.config.faultProfile
      if r.state = .acked ∨ p.interval = 0 then r
      else if r.minutes + 1 < p.interval then { r with minutes := r.minutes + 1 }
      else if r.steps < 15 then
        let u := urgencyOf p r.severity x.config.weight r.absorbed (r.steps + 1)
        { r with minutes := 0, steps := r.steps + 1, urgency := u, changeDue := r.changeDue || u ≠ r.urgency }
      else { r with minutes := 0, steps := 15 } := by
  have refreshed := State.refreshed_eq (r := { r with minutes := 0, steps := r.steps + 1 }) hx
  unfold State.escalated
  simp only [hx, refreshed]
  cases hs : r.state <;> simp

/-- The notices of a notice tick: every flagged record once, in queue order, and every flag cleared (R155). -/
theorem State.coalesce_eq {s : State} (h : s.records.wf = true) (hn : s.noticeTick = true) :
    s.coalesce = { s with
      records := s.records.mapAll fun _ r => { r with changeDue := false },
      trunk := ((s.dispatchQueue.filter fun e => e.2.changeDue).map fun e =>
        (⟨s.trunk.node, .notice (.changed (e.2.summary e.1))⟩ : TrunkFrame)).foldl Trunk.place s.trunk } := by
  have nodup : ((s.dispatchQueue.filter fun e => e.2.changeDue).map Prod.fst).Nodup :=
    ((State.dispatchQueue_ids_ne h).filter _).map _ fun _ _ hne => hne
  have flagged (e : Nat × FaultRecord) (he : e ∈ s.records) :
      e.1 ∈ (s.dispatchQueue.filter fun e => e.2.changeDue).map Prod.fst ↔ e.2.changeDue = true := by
    rw [List.mem_map]
    constructor
    · rintro ⟨e', he', hid⟩
      obtain ⟨hq, hflag⟩ := List.mem_filter.1 he'
      have held := Table.get?_of_mem h (s.dispatchQueue_perm.mem_iff.1 hq)
      rw [hid, Table.get?_of_mem h he] at held
      rwa [Option.some.inj held]
    · exact fun hflag => ⟨e, List.mem_filter.2 ⟨s.dispatchQueue_perm.mem_iff.2 he, hflag⟩, rfl⟩
  rw [State.coalesce, if_pos hn, State.foldl_sendChanged nodup]
  · congr 1
    refine Table.mapAll_congr fun e he => ?_
    rw [if_congr (flagged e he) rfl rfl]
    split
    · rfl
    · next hflag => rw [← Bool.eq_false_of_not_eq_true hflag]
  · exact fun e he => Table.get?_of_mem h (s.dispatchQueue_perm.mem_iff.1 (List.mem_filter.1 he).1)

/-- Settles O44. -/
theorem rankerMinute : Obligations.RankerMinute := by
  intro s hc h escalated u
  obtain ⟨-, -, -, hrecords⟩ := hc
  refine ⟨fun hw => exec_row_of_not_mem h hw, fun hw => (exec_row_of_mem h hw).trans (congrArg _ ?_)⟩
  have one (hm : s.mode = .run) (r : FaultRecord) : s.escalated r = escalated r := by
    unfold escalated
    cases hx : s.asset? r.asset with
    | none => simp [State.escalated, hx]
    | some x => simp [State.escalated_of_asset? hx, hm]
  have still (hm : s.mode ≠ .run) (r : FaultRecord) : escalated r = r := by
    unfold escalated
    cases s.asset? r.asset <;> simp [hm]
  have stage1 : (s.setOwed (s.owed.erase .ranker)).escalateAll = u := by
    unfold State.escalateAll
    by_cases hm : s.mode = .run
    · rw [State.setOwed_mode, if_pos hm]
      exact congrArg (State.setRecords _) (Table.mapAll_congr fun e _ => one hm e.2)
    · rw [State.setOwed_mode, if_neg hm]
      exact congrArg (s.setOwed (s.owed.erase .ranker)).setRecords (Table.mapAll_eq_self (f := fun _ r => escalated r) fun e _ => still hm e.2).symm
  have canonical : u.records.wf = true := Table.wf_mapAll hrecords fun _ r => escalated r
  rw [State.tickWork, State.rankerMinute, stage1]
  by_cases hn : u.noticeTick = true
  · have tick : s.storm.on = false ∨ s.time.runMinute % 5 = 0 := by
      simpa [State.noticeTick] using hn
    rw [if_pos tick]
    exact congrArg State.settleBeacons (State.coalesce_eq canonical hn)
  · have quiet : ¬(s.storm.on = false ∨ s.time.runMinute % 5 = 0) := by
      simpa [State.noticeTick] using hn
    rw [if_neg quiet, State.coalesce, if_neg hn]

end Sys2Proof.Machine
end

section
/-! PROOFS. What samples leave alone, and the windows that close at a minute event (O45). -/

namespace Sys2Proof.Machine

/-! ## Samples -/

/-- What a block told of itself: only FAULT notices under the node address joined the transmit queue. -/
def State.Notified (s t : State) : Prop :=
  ∃ notices : List TrunkFrame, (∀ f ∈ notices, f.addr = s.trunk.node ∧ f.body.rank = 1)
    ∧ t.trunk = notices.foldl Trunk.place s.trunk

theorem State.Notified.of_trunk {s t : State} (h : t.trunk = s.trunk) : s.Notified t := ⟨[], by simp, h⟩

theorem State.Notified.trans {s t u : State} (h : s.Notified t) (k : t.Notified u) : s.Notified u := by
  obtain ⟨fs, hfs, ht⟩ := h
  obtain ⟨gs, hgs, hu⟩ := k
  have node : t.trunk.node = s.trunk.node := by rw [ht, (foldl_place_addresses fs s.trunk).1]
  refine ⟨fs ++ gs, fun f hf => ?_, by rw [List.foldl_append, ← ht, hu]⟩
  rcases List.mem_append.1 hf with hf | hf
  · exact hfs f hf
  · exact node ▸ hgs f hf

theorem FaultOp.notified {s t : State} (h : FaultOp s t) : s.Notified t := by
  cases h with
  | notify n hn => exact ⟨[⟨s.trunk.node, .notice n⟩], by simpa using hn, rfl⟩
  | _ => exact .of_trunk rfl

theorem FaultOps.notified {s t : State} (h : FaultOps s t) : s.Notified t :=
  FaultOps.keep (P := fun u => s.Notified u) (fun hop hu => hu.trans hop.notified) h (.of_trunk rfl)

/-- The fields a sample may change, the others standing. -/
theorem FaultFrame.eq_with {s t : State} (h : FaultFrame s t) : t = { s with
    assets := t.assets, records := t.records, nextId := t.nextId, waiting := t.waiting, walkList := t.walkList,
    storm := { s.storm with opens := t.storm.opens }, trunk := t.trunk } := by
  obtain ⟨resetHeld, mode, time, owed, outstations, lines, points, drops, faultProfiles, loopProfiles, walk, rebuild, storm,
    beacons, -, freeCount, pending, -, -⟩ := h
  cases t
  simp only [State.mk.injEq, true_and]
  exact ⟨resetHeld, mode, time, owed, outstations, lines, points, drops, faultProfiles, loopProfiles, walk, rebuild, storm,
    beacons, freeCount, pending⟩

theorem State.sample_others (s : State) {a b : Nat} (h : b ≠ a) :
    ((s.sample a).asset? b).map (fun y => (y.integrator, y.health)) = (s.asset? b).map fun y => (y.integrator, y.health) := by
  unfold State.sample
  split
  · rfl
  · rw [State.handChange_integrator_health, State.asset?_putAsset_of_ne _ _ h]

theorem State.sampleAll_others (as : List Nat) (s : State) {b : Nat} (h : b ∉ as) :
    ((s.sampleAll as).asset? b).map (fun y => (y.integrator, y.health)) = (s.asset? b).map fun y => (y.integrator, y.health) := by
  induction as generalizing s with
  | nil => rfl
  | cons a as ih =>
    obtain ⟨hne, hrest⟩ := not_or.1 (List.mem_cons.not.1 h)
    exact (ih (s.sample a) hrest).trans (s.sample_others hne)

/-! ## Windows -/

theorem LoopProfile.bandAt_mem (p : LoopProfile) (start : Nat) : p.bandAt start ∈ [p.band0, p.band1, p.band2, p.band3] := by
  unfold LoopProfile.bandAt
  grind

/-- The band in force is the latest that has begun (R89). -/
theorem LoopProfile.bandAt_latest {p : LoopProfile} (h : p.InRange) (start : Nat) : (p.bandAt start).start ≤ start
    ∧ ∀ b ∈ [p.band0, p.band1, p.band2, p.band3], b.start ≤ start → b.start ≤ (p.bandAt start).start := by
  obtain ⟨-, -, -, h0, h1, h2, h3, -⟩ := h
  simp only [List.forall_mem_cons, List.not_mem_nil, false_imp_iff, implies_true, and_true]
  unfold LoopProfile.bandAt
  split
  · omega
  · split
    · omega
    · split <;> omega

theorem Window.check_eq (w : Window) (b : Band) : w.check b =
    if w.gap then .unknown
    else if w.count = 0 ∧ 0 < b.min then .fail
    else if 0 < w.count ∧ w.count < b.min then .degraded
    else if b.max < w.count then .degraded
    else .ok := by
  unfold Window.check
  grind

/-- An asset's window is replaced and the asset sampled. -/
def State.rewindow (F : Asset → Option Window) (s : State) (a : Nat) : State :=
  (s.adjustAsset a fun x => { x with window := F x }).sample a

/-- What replacing the windows of some assets, and sampling each, leaves and changes. -/
structure State.Rewindowed (F : Asset → Option Window) (as : List Nat) (s t : State) : Prop where
  rest : t = { s with
    assets := t.assets, records := t.records, nextId := t.nextId, waiting := t.waiting, walkList := t.walkList,
    storm := { s.storm with opens := t.storm.opens }, trunk := t.trunk }
  notified : s.Notified t
  canonical : s.Canonical → t.Canonical
  configs : ∀ a, (t.asset? a).map Asset.config = (s.asset? a).map Asset.config
  others : ∀ b ∉ as, (t.asset? b).map (fun y => (y.window, y.integrator, y.health))
    = (s.asset? b).map fun y => (y.window, y.integrator, y.health)
  windows : ∀ a ∈ as, (t.asset? a).map Asset.window = (s.asset? a).map F

section
variable {F : Asset → Option Window}

theorem Option.map_triple {α β γ δ : Type} {f : α → β} {g : α → γ} {h : α → δ} {x y : Option α}
    (hf : x.map f = y.map f) (hg : x.map (fun a => (g a, h a)) = y.map fun a => (g a, h a)) :
    x.map (fun a => (f a, g a, h a)) = y.map fun a => (f a, g a, h a) := by
  cases x <;> cases y <;> simp_all

theorem State.rewindow_rewindowed (s : State) (a : Nat) : s.Rewindowed F [a] (s.rewindow F a) where
  rest := (faultFrame_sample _ a).eq_with
  notified := State.Notified.trans (t := s.adjustAsset a fun x => { x with window := F x }) (.of_trunk rfl)
    (faultOps_sample _ a).notified
  canonical h := (faultOps_sample _ a).canonical (h.setAssets (Table.wf_adjust h.1 a _))
  configs b := by
    rw [State.rewindow, (faultFrame_sample _ a).configs, State.asset?_adjustAsset]
    split
    · exact Option.map_map _ _ _
    · rfl
  others b hb := by
    have hne : b ≠ a := fun e => hb (List.mem_singleton.2 e)
    have asset := State.asset?_adjustAsset_of_ne (s := s) hne fun x => { x with window := F x }
    refine Option.map_triple ?_ ?_
    · exact ((faultFrame_sample _ a).windows b).trans (congrArg _ asset)
    · exact (State.sample_others _ hne).trans (congrArg _ asset)
  windows b hb := by
    obtain rfl := List.mem_singleton.1 hb
    rw [State.rewindow, (faultFrame_sample _ b).windows, State.asset?_adjustAsset, if_pos rfl, Option.map_map]
    rfl

theorem Option.map_eq_of_fields (hF : ∀ x y : Asset, x.config = y.config → x.window = y.window → F x = F y) {x y : Option Asset}
    (hc : x.map Asset.config = y.map Asset.config) (hw : x.map Asset.window = y.map Asset.window) : x.map F = y.map F := by
  cases x <;> cases y <;> simp_all
  exact hF _ _ hc hw

/-- Window after window. -/
theorem State.foldl_rewindow (hF : ∀ x y : Asset, x.config = y.config → x.window = y.window → F x = F y) {as : List Nat}
    (h : as.Nodup) (s : State) : s.Rewindowed F as (as.foldl (State.rewindow F) s) := by
  induction as generalizing s with
  | nil =>
    exact ⟨rfl, .of_trunk rfl, id, fun _ => rfl, fun _ _ => rfl, fun _ => nofun⟩
  | cons a as ih =>
    obtain ⟨hne, hnodup⟩ := List.nodup_cons.1 h
    have head := s.rewindow_rewindowed (F := F) a
    have tail := ih hnodup (s.rewindow F a)
    rw [List.foldl_cons]
    refine ⟨?_, head.notified.trans tail.notified, tail.canonical ∘ head.canonical,
      fun b => (tail.configs b).trans (head.configs b), fun b hb => ?_, fun b hb => ?_⟩
    · generalize as.foldl (State.rewindow F) (s.rewindow F a) = t at tail
      have first := head.rest
      have second := tail.rest
      rw [first] at second
      exact second
    · obtain ⟨hba, hbas⟩ := not_or.1 (List.mem_cons.not.1 hb)
      exact (tail.others b hbas).trans (head.others b (List.mem_singleton.not.2 hba))
    · rcases List.mem_cons.1 hb with rfl | hb
      · have kept := congrArg (Option.map Prod.fst) (tail.others b hne)
        simp only [Option.map_map] at kept
        exact kept.trans (head.windows b (List.mem_singleton_self b))
      · have hba : b ≠ a := fun e => hne (e ▸ hb)
        have window := congrArg (Option.map Prod.fst) (head.others b (List.mem_singleton.not.2 hba))
        simp only [Option.map_map] at window
        exact (tail.windows b hb).trans (Option.map_eq_of_fields hF (head.configs b) window)

end

/-- The window of an asset as its close at a day-minute leaves it (R89 to R91). -/
def State.closedWindow (s : State) (d : Nat) (x : Asset) : Option Window :=
  x.config.loopProfile.bind fun p => x.window.map fun w =>
    w.closed ((s.loopProfile p).bandAt (windowStart d (s.loopProfile p).length))

/-- The assets whose windows close at a day-minute (R87). -/
def State.closesAt (s : State) (d : Nat) (x : Asset) : Prop :=
  ∃ p, x.window ≠ none ∧ x.config.loopProfile = some p ∧ d % (s.loopProfile p).length = 0

theorem State.closesAt_iff {s : State} {d : Nat} {x : Asset} :
    s.closesAt d x ↔ (s.closingProfile d x).isSome = true := by
  unfold State.closesAt State.closingProfile
  cases x.window <;> cases x.config.loopProfile <;> simp

theorem State.closeWindow_eq {s : State} {d a : Nat} {x : Asset} (h : s.assets.wf = true) (hx : s.asset? a = some x)
    (hd : s.closesAt d x) : s.closeWindow d a = s.rewindow (s.closedWindow d) a := by
  obtain ⟨p, hw, hp, hlen⟩ := hd
  obtain ⟨w, hw⟩ := Option.ne_none_iff_exists'.1 hw
  have closing : s.closingProfile d x = some (s.loopProfile p) := by simp [State.closingProfile, hw, hp, hlen]
  rw [State.closeWindow, hx]
  dsimp only
  rw [closing, State.rewindow, State.adjustAsset, Table.adjust_eq_put h hx]
  dsimp only [State.closedWindow]
  rw [hp]
  rfl

/-- The windows that close one after another, each as it stood before the first. -/
theorem State.foldl_closeWindow {d : Nat} {as : List Nat} (h : as.Nodup) (s : State) (hs : s.Canonical)
    (hd : ∀ a ∈ as, ∃ x, s.asset? a = some x ∧ s.closesAt d x) :
    as.foldl (fun t a => t.closeWindow d a) s = as.foldl (State.rewindow (s.closedWindow d)) s := by
  induction as generalizing s with
  | nil => rfl
  | cons a as ih =>
    obtain ⟨hne, hnodup⟩ := List.nodup_cons.1 h
    obtain ⟨x, hx, hclose⟩ := hd a List.mem_cons_self
    have head := s.rewindow_rewindowed (F := s.closedWindow d) a
    have profiles (p : Fin 8) : (s.rewindow (s.closedWindow d) a).loopProfile p = s.loopProfile p := by
      rw [head.rest]
      rfl
    have closed : (s.rewindow (s.closedWindow d) a).closedWindow d = s.closedWindow d := by
      simp only [funext_iff, State.closedWindow, profiles, implies_true]
    rw [List.foldl_cons, List.foldl_cons, State.closeWindow_eq hs.1 hx hclose, ih hnodup _ (head.canonical hs), closed]
    intro b hb
    obtain ⟨y, hy, q, hw, hq, hlen⟩ := hd b (List.mem_cons_of_mem a hb)
    have hba : b ∉ [a] := fun e => hne (List.mem_singleton.1 e ▸ hb)
    have config := head.configs b
    have kept := head.others b hba
    rw [hy] at config kept
    obtain ⟨z, hz, hconfig⟩ := Option.map_eq_some_iff.1 config
    rw [hz] at kept
    obtain ⟨window, -⟩ := Prod.mk.inj (Option.some.inj kept)
    refine ⟨z, hz, q, ?_, ?_, ?_⟩
    · rwa [window]
    · rwa [hconfig]
    · rwa [profiles]

theorem State.closeWindows_of_run {s : State} (hm : s.mode = .run) {d : Nat} (hd : s.time.dayMinute = some d) :
    s.closeWindows = (s.assets.keysWhere fun _ x => (s.closingProfile d x).isSome).foldl (fun t a => t.closeWindow d a) s := by
  rw [State.closeWindows, hm, hd]

theorem State.closeWindows_idle {s : State} (h : s.mode ≠ .run ∨ s.time.dayMinute = none) : s.closeWindows = s := by
  unfold State.closeWindows
  split
  · next hm hd => simp [hm, hd] at h
  · rfl

/-- Settles O45. -/
theorem windowsCloseAndAreJudged : Obligations.WindowsCloseAndAreJudged := by
  intro s hc h hprofiles taken
  refine ⟨fun hw => exec_row_of_not_mem h hw, fun hw hidle => ?_, fun d hw hm hd _ => ?_⟩
  · refine (exec_row_of_mem h hw).trans (congrArg Host.Outcome.next ?_)
    exact congrArg State.settleBeacons (State.closeWindows_idle hidle)
  · intro bandOf judged close
    refine ⟨fun p start => ⟨(s.loopProfile p).bandAt_mem start, LoopProfile.bandAt_latest (hprofiles p) start⟩, ?_⟩
    intro due hsorted hdue t
    have nodup : due.Nodup := hsorted.imp ne_of_lt
    have hjudged : judged = fun p w => w.closed (p.bandAt (windowStart d p.length)) := by
      funext p w
      rw [Window.closed, Window.check_eq]
      rfl
    have hF : taken.closedWindow d = fun x => x.config.loopProfile.bind fun p => x.window.map (judged (s.loopProfile p)) := by
      rw [hjudged]
      rfl
    have ht : t = due.foldl (State.rewindow (taken.closedWindow d)) taken := by
      rw [hF]
      rfl
    have closes (a : Nat) : a ∈ due ↔ ∃ x, s.asset? a = some x ∧ taken.closesAt d x := by
      rw [hdue]
      exact exists_congr fun x => exists_and_left
    have order : taken.assets.keysWhere (fun _ x => (taken.closingProfile d x).isSome) = due := by
      refine (Table.keysWhere_pairwise hc.1 _).eq_of_mem_iff hsorted fun a => ?_
      rw [closes, Table.mem_keysWhere hc.1]
      exact exists_congr fun x => and_congr_right fun _ => State.closesAt_iff.symm
    have changed := State.foldl_rewindow (F := taken.closedWindow d)
      (fun x y hx hy => by rw [State.closedWindow, State.closedWindow, hx, hy]) nodup taken
    rw [← ht] at changed
    refine ⟨?_, fun a x hx ha => ?_, fun a x p hx ha hp => ?_, changed.configs, changed.notified, changed.rest⟩
    · refine (exec_row_of_mem h hw).trans (congrArg Host.Outcome.next (congrArg State.settleBeacons ?_))
      refine (State.closeWindows_of_run (s := taken) hm hd).trans ?_
      rw [order, ht]
      exact State.foldl_closeWindow nodup taken hc fun a ha => (closes a).1 ha
    · exact (changed.others a ha).trans (congrArg _ hx)
    · refine (changed.windows a ha).trans ((congrArg _ hx).trans ?_)
      rw [hF, Option.map_some, hp]
      rfl

end Sys2Proof.Machine
end

section
/-! PROOFS. The beginning of a walk (O47), and one visit of a walk of either kind and of the rebuild (O49, O50, O51). -/

namespace Sys2Proof.Machine

/-! ## The beginning -/

theorem queueEntry_new {list : List WalkEntry} {root : Nat} (h : ∀ e ∈ list, e.root ≠ root) (kind : WalkKind) :
    queueEntry list root kind = list ++ [⟨root, kind⟩] := by
  refine if_neg ?_
  simpa using h

theorem queueEntry_held {before after : List WalkEntry} {root : Nat} (h : ∀ e ∈ before ++ after, e.root ≠ root)
    (old kind : WalkKind) : queueEntry (before ++ ⟨root, old⟩ :: after) root kind = before ++ ⟨root, kind⟩ :: after := by
  obtain ⟨hb, ha⟩ := List.forall_mem_append.1 h
  have same {l : List WalkEntry} (hl : ∀ e ∈ l, e.root ≠ root) :
      l.map (fun e => if e.root = root then { e with kind := kind } else e) = l :=
    (List.map_congr_left fun e he => if_neg (hl e he)).trans (List.map_id l)
  unfold queueEntry
  rw [if_pos (by simp), List.map_append, List.map_cons, same hb, same ha, if_pos rfl]

theorem State.endsAtOnce_iff {s : State} {e : WalkEntry} : s.endsAtOnce (s.walkOf e) = true ↔
    (e.kind = .absorb ∧ s.faultIdOf e.root = none) ∨ s.childrenOf e.root = [] := by
  have next : (s.walkNext (s.walkOf e)).isNone = true ↔ s.childrenOf e.root = [] := by
    simp [State.walkNext, State.walkOf, nextCursor]
  unfold State.endsAtOnce
  rw [decide_eq_true_eq, next]
  refine or_congr_left (and_congr_right fun hk => ?_)
  change e.kind = .absorb at hk
  simp [State.walkOf, hk]

theorem State.beginWalk_idle {s : State} (h : s.mode ≠ .run ∨ s.walk ≠ none ∨ s.walkList = []) : s.beginWalk = s := by
  unfold State.beginWalk
  split
  · next hm hw hl => simp [hm, hw, hl] at h
  · rfl

theorem State.beginWalk_cons {s : State} {e : WalkEntry} {rest : List WalkEntry} (hm : s.mode = .run) (hw : s.walk = none)
    (hl : s.walkList = e :: rest) :
    s.beginWalk = (s.setWalkList rest).setWalk (if s.endsAtOnce (s.walkOf e) then none else some (s.walkOf e)) := by
  unfold State.beginWalk
  rw [hm, hw, hl]

section
variable {s : State} (h : s.resetHeld = false)
include h

theorem exec_walkBegin : exec .walkBegin s = .next s.beginWalk := by
  delta exec execWalkBegin
  exact unlessHeld_free h _

theorem exec_absorbVisit : exec .absorbVisit s = .next s.absorbVisit.settleBeacons := by
  delta exec execAbsorbVisit
  exact unlessHeld_free h _

theorem exec_releaseVisit : exec .releaseVisit s = .next s.releaseVisit.settleBeacons := by
  delta exec execReleaseVisit
  exact unlessHeld_free h _

theorem exec_rebuildVisit : exec .rebuildVisit s
    = .next (if s.entersRun then s.finishOwed else s).rebuildVisit.settleBeacons := by
  delta exec execRebuildVisit
  exact unlessHeld_free h _

end

/-- Settles O47. -/
theorem walkBegins : Obligations.WalkBegins := by
  refine ⟨fun list root kind h => queueEntry_new h kind, fun before after root old kind h => queueEntry_held h old kind,
    fun s h => ⟨fun hidle => ?_, fun e rest hm hw hl => ?_⟩⟩
  · rw [exec_walkBegin h, State.beginWalk_idle hidle]
  · rw [exec_walkBegin h, State.beginWalk_cons hm hw hl]
    refine congrArg (fun w => Host.Outcome.next ((s.setWalkList rest).setWalk w)) ?_
    exact if_congr State.endsAtOnce_iff rfl rfl

/-! ## A visit of an ABSORB walk -/

/-- The asset a walk visits next lies below its root. -/
theorem State.Forest.ne_root {s : State} (hf : s.Forest) {a d : Nat} {cursor next : List Nat}
    (hn : nextCursor s a cursor = some next) (hd : next.getLast? = some d) : d ≠ a := by
  have before : d ∈ s.remaining a cursor := by
    rw [hf.remaining_next hn, List.getLastD_eq_getLast?, hd]
    exact List.mem_cons_self
  rintro rfl
  exact hf.irrefl d (hf.mem_descendantsOf.1 (hf.remaining_subset before))

theorem State.advanceWalk_after {s t : State} (h : t.tree = s.tree) (w : Walk) (cursor : List Nat) :
    t.advanceWalk w cursor = t.setWalk (if nextCursor s w.root cursor = none then none else some { w with cursor := cursor }) := by
  rw [State.advanceWalk_eq h, State.walkAt]
  simp only [Option.isNone_iff_eq_none]

theorem Table.adjust_del {α : Type} (t : Table α) (k j : Nat) (f : α → α) : (t.del j).adjust k f = (t.adjust k f).del j := by
  simp only [Table.del, Table.adjust, List.filter_map]
  congr 2
  funext e
  simp only [Function.comp_apply]
  split <;> rfl

/-- A raise after a change of an asset other than the record's own. -/
theorem State.raiseOn_adjusted {s t : State} {d a id : Nat} (hne : a ≠ d) (ha : s.faultIdOf a = some id) (f : Asset → Asset)
    (hf : ∀ x, (f x).config = x.config) (hassets : t.assets = s.assets.adjust d f)
    (hprofiles : t.faultProfiles = s.faultProfiles) :
    t.raiseOn a = t.setRecords (t.records.adjust id fun r => s.refreshed { r with absorbed := r.absorbed + 1 }) := by
  have asset (b : Nat) : t.asset? b = if b = d then (s.asset? b).map f else s.asset? b := by
    rw [State.asset?, hassets, Table.get?_adjust]
    rfl
  have held : t.faultIdOf a = some id := by
    rw [← ha]
    exact State.faultIdOf_congr ((asset a).trans (if_neg hne))
  have priced (r : FaultRecord) : t.refreshed r = s.refreshed r := by
    refine State.refreshed_congr hprofiles (fun b => ?_) r
    rw [asset]
    split
    · cases s.asset? b <;> simp [hf]
    · rfl
  rw [State.raiseOn_eq held, State.adjustRecord]
  simp only [priced]

section
variable {s : State} {d a id : Nat} (hne : a ≠ d) (ha : s.faultIdOf a = some id)
include hne ha

/-- A descendant's own record is absorbed, the raise before or after it (R132). -/
theorem State.absorbRecord_raised (own : Nat) : ((s.setAbsorber d (some a)).raiseOn a).absorbRecord own d id
    = (({ s with
      assets := s.assets.adjust d fun x => { x with absorbedBy := some a, faultId := none },
      records := s.records.del own,
      trunk := s.trunk.place ⟨s.trunk.node, .notice (.absorbed own id)⟩ } : State).raiseOn a).serveWaiting := by
  have before : (s.setAbsorber d (some a)).raiseOn a = _ :=
    State.raiseOn_adjusted hne ha (fun x => { x with absorbedBy := some a }) (fun _ => rfl) rfl rfl
  rw [before, State.absorbRecord, State.raiseOn_adjusted hne ha (fun x => { x with absorbedBy := some a, faultId := none })
    fun _ => rfl]
  · refine congrArg State.serveWaiting ?_
    rw [State.discardRecord, State.adjustAsset, State.setRecords_assets, State.setRecords_assets, State.setAbsorber,
      State.adjustAsset, State.setAssets_assets, Table.adjust_adjust, Table.adjust_del]
    rfl
  · rfl
  · rfl

/-- A descendant's wait ends, the raise before or after it (R132). -/
theorem State.leaveWaiting_raised : ((s.setAbsorber d (some a)).raiseOn a).leaveWaiting d = ({ s with
      assets := s.assets.adjust d fun x => { x with absorbedBy := some a, waiting := false },
      waiting := s.waiting.filter fun b => b ≠ d } : State).raiseOn a := by
  have before : (s.setAbsorber d (some a)).raiseOn a = _ :=
    State.raiseOn_adjusted hne ha (fun x => { x with absorbedBy := some a }) (fun _ => rfl) rfl rfl
  rw [before, State.raiseOn_adjusted hne ha (fun x => { x with absorbedBy := some a, waiting := false }) fun _ => rfl]
  · rw [State.leaveWaiting, State.adjustAsset, State.setWaiting_assets, State.setRecords_assets, State.setAbsorber,
      State.adjustAsset, State.setAssets_assets, Table.adjust_adjust]
    rfl
  · rfl
  · rfl

end

section
variable {s : State} {w : Walk} (hm : s.mode = .run) (hw : s.walk = some w)
include hm hw

theorem State.absorbVisit_abandoned (hk : w.kind = .absorb)
    (hend : w.recorded = none ∨ s.faultIdOf w.root ≠ w.recorded ∨ nextCursor s w.root w.cursor = none) :
    s.absorbVisit = s.setWalk none := by
  simp only [State.absorbVisit, hm, hw, hk, State.walkNext]
  cases hrec : w.recorded with
  | none => rfl
  | some id =>
    dsimp only
    split
    · rfl
    · next hroot =>
      rw [(hend.resolve_left (by simp [hrec])).resolve_left (by rwa [hrec])]

theorem State.absorbVisit_next (hk : w.kind = .absorb) {id : Nat} {cursor : List Nat} (hrec : w.recorded = some id)
    (hroot : s.faultIdOf w.root = some id) (hnext : nextCursor s w.root w.cursor = some cursor) :
    s.absorbVisit = (s.absorbAt w.root id (cursor.getLastD w.root)).advanceWalk w cursor := by
  simp [State.absorbVisit, hm, hw, hk, hrec, hroot, State.walkNext, hnext]

theorem State.releaseVisit_abandoned (hk : w.kind = .release)
    (hend : s.faultIdOf w.root ≠ none ∨ nextCursor s w.root w.cursor = none) : s.releaseVisit = s.setWalk none := by
  simp only [State.releaseVisit, hm, hw, hk, State.walkNext]
  split
  · rfl
  · next hroot => rw [hend.resolve_left (by simpa using hroot)]

theorem State.releaseVisit_next (hk : w.kind = .release) {cursor : List Nat}
    (hroot : s.faultIdOf w.root = none) (hnext : nextCursor s w.root w.cursor = some cursor) :
    s.releaseVisit = (s.releaseAt w.root (cursor.getLastD w.root)).advanceWalk w cursor := by
  simp [State.releaseVisit, hm, hw, hk, hroot, State.walkNext, hnext]

end

/-- Settles O49. -/
theorem absorbVisit : Obligations.AbsorbVisit := by
  intro s w hc hl ht h hm hw hk
  have forest := ht.forest hc.1
  refine ⟨fun hend => ?_, fun id d cursor x hrec hroot hnext hlast hx => ?_⟩
  · rw [exec_absorbVisit h, State.absorbVisit_abandoned hm hw hk hend]
    rfl
  · intro visited named
    have hne : w.root ≠ d := (forest.ne_root hnext hlast).symm
    have present : s.asset? w.root ≠ none := State.asset?_ne_none_of_faultIdOf (by rw [hroot]; exact nofun)
    have visit {t : State} (he : s.absorbAt w.root id d = t) : exec .absorbVisit s = .next (visited t) := by
      have tree : t.tree = s.tree := he ▸ (faultOps_absorbAt s id d present).tree hc
      rw [exec_absorbVisit h, State.absorbVisit_next hm hw hk hrec hroot hnext, List.getLastD_eq_getLast?, hlast,
        Option.getD_some, he, State.advanceWalk_after tree]
      rfl
    rcases (hl.balanced hc).absorbAt_cases hx w.root id with ⟨hab, he⟩ | ⟨hab, hplace⟩
    · exact ⟨fun _ => visit he, fun hother => absurd hab hother⟩
    · refine ⟨fun hsame => absurd hsame hab, fun _ => ?_⟩
      rcases hplace with ⟨hf, hid, hwait, he⟩ | ⟨z, hf, hz, hid, hwait, he⟩ | ⟨own, hf, hz, hid, hwait, he⟩
          | ⟨hf, hz, hid, hwait, he⟩
      · refine ⟨fun _ => visit he, fun z hf' => absurd hf hf', fun own hown => ?_, fun hw' => ?_⟩
        · simp [hid] at hown
        · simp [hwait] at hw'
      · refine ⟨fun hf' => absurd hf' hf, fun z' _ hz' => ?_, fun own hown => ?_, fun hw' => ?_⟩
        · obtain rfl := Option.some.inj (hz.symm.trans hz')
          exact visit he
        · simp [hid] at hown
        · simp [hwait] at hw'
      · refine ⟨fun hf' => absurd hf' hf, fun z' _ hz' => ?_, fun own' hown => ?_, fun hw' => ?_⟩
        · simp [hz] at hz'
        · obtain rfl := Option.some.inj (hid.symm.trans hown)
          exact visit (he.trans (State.absorbRecord_raised hne hroot own))
        · simp [hwait] at hw'
      · refine ⟨fun hf' => absurd hf' hf, fun z' _ hz' => ?_, fun own' hown => ?_, fun _ => ?_⟩
        · simp [hz] at hz'
        · simp [hid] at hown
        · exact visit (he.trans (State.leaveWaiting_raised hne hroot))

/-! ## A visit of a RELEASE walk -/

/-- Settles O50. -/
theorem releaseVisit : Obligations.ReleaseVisit := by
  intro s w hc hl ht h hm hw hk
  refine ⟨fun hend => ?_, fun d cursor x hroot hnext hlast hx => ?_⟩
  · rw [exec_releaseVisit h, State.releaseVisit_abandoned hm hw hk hend]
    rfl
  · intro next named
    have tree := (faultOps_releaseAt s w.root d).tree hc
    have visit {t : State} (he : s.releaseAt w.root d = t) : exec .releaseVisit s = .next (t.setWalk next).settleBeacons := by
      rw [exec_releaseVisit h, State.releaseVisit_next hm hw hk hroot hnext, List.getLastD_eq_getLast?, hlast,
        Option.getD_some, State.advanceWalk_after tree, he]
    have release := State.releaseAt_eq hx w.root
    refine ⟨fun hkeep => ?_, fun ⟨z, hz, hact⟩ => ?_⟩
    · rw [if_neg fun hr => ?_] at release
      · exact visit release
      · obtain ⟨z, hz, hact⟩ := State.releases_iff.1 hr
        obtain ⟨hroot', hheld⟩ := hkeep z hz
        exact hact.elim hroot' hheld
    · rw [if_pos (State.releases_iff.2 ⟨z, hz, hact⟩)] at release
      refine ⟨fun lower higher z hanc hz hnone => ?_, fun hnone => ?_⟩
      · rw [State.highestHolder_eq_some.2 ⟨lower, higher, hanc, hz, hnone⟩] at release
        exact visit release
      · rw [State.highestHolder_eq_none.2 hnone] at release
        exact visit release

/-! ## A visit of the rebuild -/

theorem State.rebuildVisit_idle {s : State} (h : s.mode ≠ .entering ∨ s.rebuild = none) : s.rebuildVisit = s := by
  unfold State.rebuildVisit
  split
  · next hm hb => simp [hm, hb] at h
  · rfl

theorem State.entersRun_idle {s : State} (h : s.mode ≠ .entering ∨ s.rebuild = none) : s.entersRun = false := by
  unfold State.entersRun
  split
  · next hm hb => simp [hm, hb] at h
  · rfl

section
variable {s : State} {b : Rebuild} (hm : s.mode = .entering) (hb : s.rebuild = some b)
include hm hb

theorem State.entersRun_iff : s.entersRun = true ↔ ∀ v ∈ s.rebuildNext b.last, s.rebuildNext (some v) = none := by
  simp only [State.entersRun, hm, hb]
  cases s.rebuildNext b.last <;> simp

theorem State.rebuildVisit_last (hn : s.rebuildNext b.last = none) : s.rebuildVisit = s.enterRun b.owed := by
  simp [State.rebuildVisit, hm, hb, hn]

/-- The visit of the next asset, and the entry to RUN after the last (R138, R176). -/
theorem State.rebuildVisit_next (hc : s.Canonical) {v : Nat} (hn : s.rebuildNext b.last = some v) :
    s.rebuildVisit = if s.rebuildNext (some v) = none then (s.rebuildAt v).enterRun b.owed
      else (s.rebuildAt v).setRebuild (some { b with last := some v }) := by
  have next : ((s.rebuildAt v).setRebuild (some { b with last := some v })).rebuildNext (some v) = s.rebuildNext (some v) := by
    have tree : ((s.rebuildAt v).setRebuild (some { b with last := some v })).tree = s.tree := (faultOps_rebuildAt s v).tree hc
    rw [State.rebuildNext, State.rebuildNext, State.forest_of_tree tree]
  simp only [State.rebuildVisit, hm, hb, hn, next, Option.isNone_iff_eq_none]
  rfl

end

/-- An asset that does not wait, renamed, as one whose wait ends. -/
theorem State.setAbsorber_unwaiting {s : State} (hw : s.assets.wf = true) {v : Nat} {x : Asset} (hx : s.asset? v = some x)
    (hwait : x.waiting = false) (hv : v ∉ s.waiting) (z : Option Nat) : s.setAbsorber v z = { s with
      assets := s.assets.adjust v fun x => { x with absorbedBy := z, waiting := false },
      waiting := s.waiting.filter fun b => b ≠ v } := by
  have still : (s.waiting.filter fun b => b ≠ v) = s.waiting :=
    List.filter_eq_self.2 fun b hb => decide_eq_true fun he => hv (he ▸ hb)
  rw [State.setAbsorber, State.adjustAsset, Table.adjust_eq_put hw hx, Table.adjust_eq_put hw hx, still, ← hwait]
  rfl

/-- Settles O51. -/
theorem rebuildVisit : Obligations.RebuildVisit := by
  intro s hc hl ht h
  refine ⟨fun hidle => ?_, fun b hm hb => ⟨fun hlast => ?_, fun ho => ?_⟩⟩
  · rw [exec_rebuildVisit h, if_neg (by simp [State.entersRun_idle hidle]), State.rebuildVisit_idle hidle]
  · have settled := (tickFrame_finishOwed s).resetHeld.trans h
    rw [exec_rebuildVisit h, exec_rebuildVisit settled, if_pos ((State.entersRun_iff hm hb).2 hlast),
      State.finishOwed_finishOwed, ite_self]
  · intro entered
    have run : exec .rebuildVisit s = .next s.rebuildVisit.settleBeacons := by
      rw [exec_rebuildVisit h]
      rcases ho with ho | ⟨v, hv, hmore⟩
      · rw [State.finishOwed_of_nil ho, ite_self]
      · rw [if_neg fun he => hmore ((State.entersRun_iff hm hb).1 he v hv)]
    refine ⟨fun hn => ?_, fun v x hn hx => ?_⟩
    · rw [run, State.rebuildVisit_last hm hb hn]
      rfl
    · intro ended named
      have visit {t : State} (he : s.rebuildAt v = t) : exec .rebuildVisit s = .next (ended t) := by
        rw [run, State.rebuildVisit_next hm hb hc hn, he]
        unfold ended
        split <;> rfl
      refine ⟨fun hnone => ?_, fun lower higher z id hanc hz hnone => ?_⟩
      · exact visit (State.rebuildAt_alone hx (State.highestHolder_eq_none.2 hnone))
      · have holder : s.highestHolder v = some z :=
          State.highestHolder_eq_some.2 ⟨lower, higher, hanc, by rw [hz]; exact nofun, hnone⟩
        have balanced := hl.balanced hc
        rcases balanced.rebuildAt_under hx holder with ⟨hf, hid, hwait, he⟩ | ⟨old, hf, hold, hid, hwait, he⟩
            | ⟨own, hf, hold, hid, hwait, he⟩ | ⟨hf, hold, hid, hwait, he⟩
        · refine ⟨fun own hown => ?_, fun _ _ => visit he, fun _ hf' => absurd hf hf'⟩
          simp [hid] at hown
        · refine ⟨fun own hown => ?_, fun _ hf' => absurd hf' hf, fun _ _ => ?_⟩
          · simp [hid] at hown
          · refine visit (he.trans (congrArg (State.raiseOn · z) ?_))
            exact State.setAbsorber_unwaiting hc.1 hx hwait (balanced.not_waiting hx hwait) _
        · refine ⟨fun own' hown => ?_, fun hid' => ?_, fun hid' => ?_⟩
          · obtain rfl := Option.some.inj (hid.symm.trans hown)
            refine visit (he.trans (congrArg (fun t : State => t.serveWaiting.raiseOn z) ?_))
            rw [State.faultIdOf_setAbsorber, hz, State.discardRecord, State.adjustAsset, State.setRecords_assets,
              State.setAbsorber, State.adjustAsset, State.setAssets_assets, Table.adjust_adjust]
            rfl
          · simp [hid] at hid'
          · simp [hid] at hid'
        · refine ⟨fun own hown => ?_, fun _ hf' => absurd hf' hf, fun _ _ => ?_⟩
          · simp [hid] at hown
          · refine visit (he.trans (congrArg (State.raiseOn · z) ?_))
            rw [State.leaveWaiting, State.adjustAsset, State.setWaiting_assets, State.setAbsorber, State.adjustAsset,
              State.setAssets_assets, Table.adjust_adjust]
            rfl

end Sys2Proof.Machine
end

section
/-! PROOFS. The line units at work: reply timers and failures (O40, O42), and what a READY line chooses (O38, O39). -/

namespace Sys2Proof.Machine

/-! ## Lines -/

theorem Vector.set_get {α : Type} {n : Nat} (v : Vector α n) (k : Fin n) (x : α) : (v.set k.val x k.isLt).get k = x :=
  Vector.getElem_set_self k.isLt

theorem State.adjustLine_adjustLine (s : State) (k : Fin 4) (f g : Line → Line) :
    (s.adjustLine k f).adjustLine k g = s.adjustLine k fun l => g (f l) := by
  unfold State.adjustLine
  rw [State.setLines_lines, Vector.set_get, Vector.set_set]
  rfl

theorem State.adjustLine_eq (s : State) (k : Fin 4) (f : Line → Line) :
    s.adjustLine k f = { s with lines := s.lines.set k.val (f (s.line k)) k.isLt } := rfl

/-- The awaited transaction of a line that is in RUN under a personality (R19). -/
theorem State.awaitedOn_iff {s : State} {k : Fin 4} {t : Transaction} : s.awaitedOn k = some t ↔
    (s.line k).settings.personality ≠ .off ∧ s.mode = .run ∧ (s.line k).transaction = some t ∧ t.phase ≠ .sending := by
  unfold State.awaitedOn State.lineState Transaction.awaited
  by_cases hp : (s.line k).settings.personality = .off
  · cases (s.line k).transaction <;> simp [hp]
  · by_cases hm : s.mode = .run
    · cases (s.line k).transaction <;> simp [hp, hm]
      grind
    · cases (s.line k).transaction <;> simp [hp, hm]

/-! ## Timers -/

section
variable {s : State} {k : Fin 4} (h : s.resetHeld = false)
include h

theorem exec_sweepSent : exec (.sweepSent k) s = .next (match (s.line k).transaction with
    | some t => if t.kind.isSweep ∧ t.phase ≠ .awaiting ∧ s.mode = .run then s.startTimer k t else s
    | none => s) := by
  delta exec execSweepSent
  exact unlessHeld_free h _

theorem exec_orderSent : exec (.orderSent k) s = .next (match (s.line k).transaction with
    | some t => if !t.kind.isSweep ∧ t.phase ≠ .awaiting ∧ s.mode = .run then s.startTimer k t else s
    | none => s) := by
  delta exec execOrderSent
  exact unlessHeld_free h _

theorem sweepSent_idle (hidle : ∀ t ∈ (s.line k).transaction, ¬(t.kind.isSweep = true ∧ t.phase ≠ .awaiting ∧ s.mode = .run)) :
    exec (.sweepSent k) s = .next s := by
  rw [exec_sweepSent h]
  cases ht : (s.line k).transaction with
  | none => rfl
  | some t => exact congrArg _ (if_neg (hidle t ht))

theorem sweepSent_taken {t : Transaction} (ht : (s.line k).transaction = some t)
    (hs : t.kind.isSweep = true ∧ t.phase ≠ .awaiting ∧ s.mode = .run) : exec (.sweepSent k) s = .next (s.startTimer k t) := by
  rw [exec_sweepSent h, ht]
  exact congrArg _ (if_pos hs)

theorem orderSent_idle (hidle : ∀ t ∈ (s.line k).transaction, ¬(t.kind.isSweep = false ∧ t.phase ≠ .awaiting ∧ s.mode = .run)) :
    exec (.orderSent k) s = .next s := by
  rw [exec_orderSent h]
  cases ht : (s.line k).transaction with
  | none => rfl
  | some t => exact congrArg _ (if_neg (by simpa using hidle t ht))

theorem orderSent_taken {t : Transaction} (ht : (s.line k).transaction = some t)
    (hs : t.kind.isSweep = false ∧ t.phase ≠ .awaiting ∧ s.mode = .run) : exec (.orderSent k) s = .next (s.startTimer k t) := by
  rw [exec_orderSent h, ht]
  exact congrArg _ (if_pos (by simpa using hs))

theorem sweepTimeout_idle (hidle : ∀ t, s.awaitedOn k = some t → ¬(t.kind.isSweep = true ∧ t.phase = .awaiting)) :
    exec (.sweepTimeout k) s = .next s := by
  delta exec execSweepTimeout
  refine (unlessHeld_free h _).trans (congrArg _ ?_)
  cases ht : s.awaitedOn k with
  | none => rfl
  | some t => exact if_neg (hidle t ht)

theorem sweepTimeout_taken {t : Transaction} (ht : s.awaitedOn k = some t) (hs : t.kind.isSweep = true ∧ t.phase = .awaiting) :
    exec (.sweepTimeout k) s = .next (if s.retryOf t.outstation < (s.line k).settings.n2 then
        (s.countOn k .timeout).resendSweep k t
      else ((s.countOn k .timeout).failTransaction k t.outstation).settleBeacons) := by
  delta exec execSweepTimeout
  refine (unlessHeld_free h _).trans (congrArg _ ?_)
  rw [ht]
  exact if_pos hs

theorem orderTimeout_idle (hidle : ∀ t, s.awaitedOn k = some t → ¬(t.kind.isSweep = false ∧ t.phase = .awaiting)) :
    exec (.orderTimeout k) s = .next s := by
  delta exec execOrderTimeout
  refine (unlessHeld_free h _).trans (congrArg _ ?_)
  cases ht : s.awaitedOn k with
  | none => rfl
  | some t =>
    dsimp only
    split
    · next e hk hp => exact absurd ⟨by rw [hk]; rfl, hp⟩ (hidle t ht)
    · rfl

theorem orderTimeout_taken {t : Transaction} {e : Downlink} (ht : s.awaitedOn k = some t) (hk : t.kind = .order e)
    (hp : t.phase = .awaiting) : exec (.orderTimeout k) s
      = .next (((s.countOn k .timeout).setTransaction k none).reply ⟨e.addr, e.tag⟩ .noAnswer []) := by
  delta exec execOrderTimeout
  refine (unlessHeld_free h _).trans (congrArg _ ?_)
  simp only [ht, hk, hp]

end

theorem State.retryOf_of_outstation? {s : State} {o : Nat} {x : Outstation} (hx : s.outstation? o = some x) :
    s.retryOf o = x.retry := by
  rw [State.retryOf, hx]
  rfl

/-- Settles O40. -/
theorem transactionTimers : Obligations.TransactionTimers := by
  intro s k h l
  have inHand {t : Transaction} (ht : s.awaitedOn k = some t) : l.transaction = some t ∧ t.phase ≠ .sending := by
    obtain ⟨-, -, ht, hp⟩ := State.awaitedOn_iff.1 ht
    exact ⟨ht, hp⟩
  refine ⟨fun hm => ?_, fun t ht => ⟨fun hk => ⟨?_, ?_⟩, fun hk => ⟨?_, ?_⟩⟩, fun t hm ht hp c hc => ?_, fun hend => ⟨?_, ?_⟩,
    fun hend => ⟨?_, ?_⟩, fun t x hm hpers ht hp hk hx hr => ?_, fun e t hm hpers ht hk hp => ?_⟩
  · simp only [List.forall_mem_cons, List.not_mem_nil, false_imp_iff, implies_true, and_true]
    have none (t : Transaction) : s.awaitedOn k ≠ some t := fun ht => hm (State.awaitedOn_iff.1 ht).2.1
    exact ⟨sweepSent_idle h fun t _ ht => hm ht.2.2, orderSent_idle h fun t _ ht => hm ht.2.2,
      sweepTimeout_idle h fun t ht => absurd ht (none t), orderTimeout_idle h fun t ht => absurd ht (none t)⟩
  · refine sweepSent_idle h fun u hu hs => ?_
    obtain rfl := Option.some.inj (hu.symm.trans ht)
    exact absurd hs.1 (by simp [hk])
  · refine sweepTimeout_idle h fun u hu hs => ?_
    obtain rfl := Option.some.inj ((inHand hu).1.symm.trans ht)
    exact absurd hs.1 (by simp [hk])
  · refine orderSent_idle h fun u hu hs => ?_
    obtain rfl := Option.some.inj (hu.symm.trans ht)
    exact absurd hs.1 (by simp [hk])
  · refine orderTimeout_idle h fun u hu hs => ?_
    obtain rfl := Option.some.inj ((inHand hu).1.symm.trans ht)
    exact absurd hs.1 (by simp [hk])
  · cases hs : t.kind.isSweep with
    | true =>
      have sweep : c = .sweepSent k := by
        rw [hc]
        cases hk : t.kind <;> simp_all [TransactionKind.isSweep]
      rw [sweep]
      exact sweepSent_taken h ht ⟨hs, hp, hm⟩
    | false =>
      have order : c = .orderSent k := by
        rw [hc]
        cases hk : t.kind <;> simp_all [TransactionKind.isSweep]
      rw [order]
      exact orderSent_taken h ht ⟨hs, hp, hm⟩
  · refine sweepSent_idle h fun u hu hs => ?_
    obtain hnone | ⟨t, ht, hp⟩ := hend
    · exact absurd (hu.symm.trans hnone) nofun
    · obtain rfl := Option.some.inj (hu.symm.trans ht)
      exact hs.2.1 hp
  · refine orderSent_idle h fun u hu hs => ?_
    obtain hnone | ⟨t, ht, hp⟩ := hend
    · exact absurd (hu.symm.trans hnone) nofun
    · obtain rfl := Option.some.inj (hu.symm.trans ht)
      exact hs.2.1 hp
  · refine sweepTimeout_idle h fun u hu hs => ?_
    obtain hnone | ⟨t, ht, hp⟩ := hend
    · exact absurd ((inHand hu).1.symm.trans hnone) nofun
    · obtain rfl := Option.some.inj ((inHand hu).1.symm.trans ht)
      exact hp hs.2
  · refine orderTimeout_idle h fun u hu hs => ?_
    obtain hnone | ⟨t, ht, hp⟩ := hend
    · exact absurd ((inHand hu).1.symm.trans hnone) nofun
    · obtain rfl := Option.some.inj ((inHand hu).1.symm.trans ht)
      exact hp hs.2
  · have awaited : s.awaitedOn k = some t := State.awaitedOn_iff.2 ⟨hpers, hm, ht, by rw [hp]; exact nofun⟩
    rw [sweepTimeout_taken h awaited ⟨hk, hp⟩, State.retryOf_of_outstation? hx, if_pos hr, State.resendSweep,
      State.setTransaction, State.countOn, State.adjustLine_adjustLine]
    rfl
  · have awaited : s.awaitedOn k = some t := State.awaitedOn_iff.2 ⟨hpers, hm, ht, by rw [hp]; exact nofun⟩
    rw [orderTimeout_taken h awaited hk hp, State.setTransaction, State.countOn, State.adjustLine_adjustLine]
    rfl

/-! ## Failures -/

/-- A SWEEP fails: the outstation's record, the silence actions where it was not SILENT, and its link asset's sample
(R25, R26, R58). -/
theorem State.failTransaction_eq {s : State} {k : Fin 4} {o : Nat} {x : Outstation} (hx : s.outstation? o = some x) :
    let newly : Bool := x.comms ≠ .silent
    s.failTransaction k o = ({ s with
      lines := s.lines.set k.val { s.line k with transaction := none } k.isLt,
      outstations := s.outstations.put o { x with
        comms := .silent, retry := 0, fullDue := newly || x.fullDue, integrityDue := !newly && x.integrityDue,
        countdown := if (s.line k).settings.personality = .exception then (s.line k).settings.g
          else if newly then (s.line k).settings.rv else x.countdown },
      points := s.points.mapAll fun key p => if newly = true ∧ key / 1024 = o then p.silenced else p,
      assets := s.assets.mapAll fun a y =>
        if newly = true ∧ ∃ e ∈ s.points, e.1 / 1024 = o ∧ e.2.countAsset = some a then y.withGap else y,
      trunk := if newly then s.trunk.place ⟨s.trunk.node, .notice (.link o false)⟩ else s.trunk } : State).sampleLink x := by
  intro newly
  have same : s.points.mapAll (fun _ p => p) = s.points := Table.mapAll_eq_self fun _ _ => rfl
  have sameAssets : s.assets.mapAll (fun _ y => y) = s.assets := Table.mapAll_eq_self fun _ _ => rfl
  have present : (s.setTransaction k none).outstation? o = some x := hx
  have line : ((s.setTransaction k none).line k).settings = (s.line k).settings := by
    rw [State.setTransaction, State.adjustLine_line_self]
  rw [State.failTransaction]
  dsimp only
  rw [present]
  dsimp only
  split
  · next hs =>
    have : newly = false := by simp [newly, hs]
    simp only [this, Bool.false_eq_true, false_and, if_false, same, sameAssets, Bool.false_or, Bool.not_false, Bool.true_and,
      ← hs]
    rw [State.staySilent, line]
    rfl
  · next hs =>
    have : newly = true := by simp [newly, hs]
    have countdown : (if (s.line k).settings.personality = .exception then (s.line k).settings.g else (s.line k).settings.rv)
        = (s.line k).settings.revisit := by
      unfold LineSettings.revisit
      grind
    simp only [this, if_true, true_and, Bool.true_or, Bool.not_true, Bool.false_and, countdown]
    have gapped : (s.assets.mapAll fun a y =>
          if s.points.any fun e => pointOutstation e.1 = o ∧ e.2.countAsset = some a then y.withGap else y)
        = s.assets.mapAll fun a y =>
          if ∃ e ∈ s.points, e.1 / 1024 = o ∧ e.2.countAsset = some a then y.withGap else y :=
      Table.mapAll_congr fun e _ => if_congr (by simp only [List.any_eq_true, decide_eq_true_eq]; rfl) rfl rfl
    rw [State.becomeSilent, line, ← gapped]
    rfl

/-- Settles O42. -/
theorem sweepFailureSilences : Obligations.SweepFailureSilences := by
  intro s k tr x hc h hm hpers ht hp hk hx hr l newly silenced sampled
  have awaited : s.awaitedOn k = some tr := State.awaitedOn_iff.2 ⟨hpers, hm, ht, by rw [hp]; exact nofun⟩
  have frame : FaultFrame silenced sampled := by
    unfold sampled
    split
    · exact faultFrame_sample _ _
    · exact .refl _
  have ops : FaultOps silenced sampled := by
    unfold sampled
    split
    · exact faultOps_sample _ _
    · exact .refl
  refine ⟨?_, fun a => ?_, fun a ha => ?_, ?_, frame.eq_with⟩
  · rw [sweepTimeout_taken h awaited ⟨hk, hp⟩, State.retryOf_of_outstation? hx, if_neg (Nat.not_lt.mpr hr)]
    have present : (s.countOn k .timeout).outstation? tr.outstation = some x := hx
    have line : (s.countOn k .timeout).line k
        = { l with counters := { l.counters with timeouts := min 65535 (l.counters.timeouts + 1) } } :=
      s.adjustLine_line_self k fun l => { l with counters := l.counters.timeout }
    have failed := State.failTransaction_eq (k := k) present
    have link : sampled = silenced.sampleLink x := by
      unfold sampled State.sampleLink
      cases x.config.link <;> rfl
    rw [link]
    refine congrArg (fun t : State => Host.Outcome.next t.settleBeacons) (failed.trans ?_)
    have lines (y : Line) : (s.countOn k .timeout).lines.set k.val y k.isLt = s.lines.set k.val y k.isLt := Vector.set_set ..
    rw [line, lines]
    rfl
  · have config := frame.configs a
    have window := frame.windows a
    revert config window
    cases sampled.asset? a <;> cases silenced.asset? a <;> simp_all
  · have sample : (sampled.asset? a).map (fun y => (y.integrator, y.health))
        = (silenced.asset? a).map fun y => (y.integrator, y.health) := by
      unfold sampled
      split
      · next b hb => exact State.sample_others _ fun e => ha (by rw [hb, e])
      · rfl
    rw [sample, State.asset?, Table.get?_mapAll, Option.map_map]
    refine Option.map_congr fun y _ => ?_
    rw [Function.comp_apply]
    split <;> rfl
  · obtain ⟨notices, hnotices, htrunk⟩ := ops.notified
    have node : silenced.trunk.node = s.trunk.node := by
      unfold silenced
      dsimp only
      split
      · exact (foldl_place_addresses [_] s.trunk).1
      · rfl
    exact ⟨notices, fun f hf => node ▸ hnotices f hf, htrunk⟩

end Sys2Proof.Machine
end

section
/-! PROOFS. What a READY line chooses (O38, O39). -/

namespace Sys2Proof.Machine

/-! ## The stations of a line in their order -/

theorem insertStation_pairwise {l : List (Nat × Outstation)} (e : Nat × Outstation)
    (h : l.Pairwise fun e e' => e.2.config.address ≤ e'.2.config.address) :
    (insertStation e l).Pairwise fun e e' => e.2.config.address ≤ e'.2.config.address := by
  induction l with
  | nil => exact List.pairwise_singleton _ _
  | cons a l ih =>
    obtain ⟨ha, hl⟩ := List.pairwise_cons.1 h
    rw [insertStation]
    split
    · next hle =>
      refine List.pairwise_cons.2 ⟨fun e' he' => ?_, h⟩
      rcases List.mem_cons.1 he' with rfl | he'
      · exact hle
      · exact hle.trans (ha e' he')
    · next hlt =>
      refine List.pairwise_cons.2 ⟨fun e' he' => ?_, ih hl⟩
      rcases mem_insertStation.1 he' with rfl | he'
      · exact (not_le.1 hlt).le
      · exact ha e' he'

theorem State.stations_pairwise (s : State) (k : Fin 4) :
    (s.stations k).Pairwise fun e e' => e.2.config.address ≤ e'.2.config.address := by
  unfold State.stations
  generalize (s.outstations.filter fun e => lineOf e.1 = k.val) = l
  induction l with
  | nil => exact List.Pairwise.nil
  | cons e l ih => exact insertStation_pairwise e ih

/-- The stations of a line after a change that keeps every station address. -/
theorem State.stations_mapAll (s : State) (k : Fin 4) {f : Nat → Outstation → Outstation}
    (hf : ∀ o x, (f o x).config = x.config) :
    (s.setOutstations (s.outstations.mapAll f)).stations k = (s.stations k).map fun e => (e.1, f e.1 e.2) := by
  have insert (e : Nat × Outstation) (l : List (Nat × Outstation)) :
      insertStation (e.1, f e.1 e.2) (l.map fun e => (e.1, f e.1 e.2)) = (insertStation e l).map fun e => (e.1, f e.1 e.2) := by
    induction l with
    | nil => rfl
    | cons a l ih =>
      simp only [List.map_cons, insertStation, hf, ih]
      split <;> rfl
  have fold (l : List (Nat × Outstation)) : (l.map fun e => (e.1, f e.1 e.2)).foldr insertStation []
      = (l.foldr insertStation []).map fun e => (e.1, f e.1 e.2) := by
    induction l with
    | nil => rfl
    | cons e l ih => rw [List.map_cons, List.foldr_cons, ih, insert, List.foldr_cons]
  unfold State.stations
  rw [State.setOutstations_outstations, Table.mapAll, List.filter_map]
  exact fold _

/-- In a list in rising order of a key that tells its members apart, the search finds the least that passes. -/
theorem find?_eq_some_of_least {α : Type} {l : List α} {key : α → Nat} {p : α → Bool} {e : α}
    (hl : l.Pairwise fun e e' => key e ≤ key e') (hkey : ∀ e ∈ l, ∀ e' ∈ l, key e = key e' → e = e') (he : e ∈ l)
    (hp : p e = true) (hleast : ∀ e' ∈ l, p e' = true → key e ≤ key e') : l.find? p = some e := by
  induction l with
  | nil => cases he
  | cons a l ih =>
    obtain ⟨ha, hl⟩ := List.pairwise_cons.1 hl
    rw [List.find?_cons]
    split
    · next hpa =>
      have hle := hleast a List.mem_cons_self hpa
      rcases List.mem_cons.1 he with rfl | he'
      · rfl
      · exact congrArg some (hkey a List.mem_cons_self e he (le_antisymm (ha e he') hle))
    · next hpa =>
      rcases List.mem_cons.1 he with rfl | he
      · simp [hp] at hpa
      · exact ih hl (fun e he e' he' => hkey e (List.mem_cons_of_mem a he) e' (List.mem_cons_of_mem a he')) he
          fun e' he' => hleast e' (List.mem_cons_of_mem a he')

section
variable {s : State} (hs : s.TablesSound) {k : Fin 4}
include hs

theorem State.stations_address_inj : ∀ e ∈ s.stations k, ∀ e' ∈ s.stations k,
    e.2.config.address = e'.2.config.address → e = e' := by
  obtain ⟨⟨-, hw, -⟩, -, -, -, hd⟩ := hs
  intro e he e' he' ha
  obtain ⟨he, hl⟩ := State.mem_stations.1 he
  obtain ⟨he', hl'⟩ := State.mem_stations.1 he'
  have hid := hd e he e' he' (hl.trans hl'.symm) ha
  have held := Table.get?_of_mem hw he
  rw [hid, Table.get?_of_mem hw he'] at held
  exact Prod.ext hid (Option.some.inj held).symm

/-- The least station that passes a test is the one found (R27, R34). -/
theorem State.find?_stations {p : Nat × Outstation → Bool} {o : Nat} {x : Outstation} (hx : (o, x) ∈ s.outstations)
    (ho : o / 32 = k.val) (hp : p (o, x) = true)
    (hleast : ∀ e ∈ s.outstations, e.1 / 32 = k.val → p e = true → x.config.address ≤ e.2.config.address) :
    (s.stations k).find? p = some (o, x) :=
  find?_eq_some_of_least (s.stations_pairwise k) (State.stations_address_inj hs) (State.mem_stations.2 ⟨hx, ho⟩) hp
    fun e he hpe => by
      obtain ⟨he, hl⟩ := State.mem_stations.1 he
      exact hleast e he hl hpe

end

theorem State.find?_stations_none {s : State} {k : Fin 4} {p : Nat × Outstation → Bool}
    (h : ∀ e ∈ s.outstations, e.1 / 32 = k.val → p e = false) : (s.stations k).find? p = none := by
  refine List.find?_eq_none.2 fun e he => ?_
  obtain ⟨he, hl⟩ := State.mem_stations.1 he
  simp [h e he hl]

/-! ## The EXCEPTION line -/

theorem Outstation.checkDue_iff {x : Outstation} : x.checkDue = true ↔ x.fullDue = true
    ∨ (x.comms ≠ .silent ∧ x.integrityDue = true) ∨ (x.comms = .silent ∧ x.countdown = 0) := by
  unfold Outstation.checkDue
  cases hx : x.comms <;> simp

theorem Outstation.sweptFull_eq (x : Outstation) : x.sweptFull = (decide (x.comms ≠ .online) || x.fullDue) := by
  unfold Outstation.sweptFull
  simp

section
variable {s : State} {k : Fin 4} (h : s.resetHeld = false)
include h

theorem exec_exceptionChoose : exec (.exceptionChoose k) s = .next (
    if (s.line k).settings.personality = .exception ∧ s.lineFree k = true then s.chooseException k else s) := by
  delta exec execExceptionChoose
  exact unlessHeld_free h _

theorem exec_pollChoose : exec (.pollChoose k) s = .next (
    if (s.line k).settings.personality = .polled ∧ s.lineFree k = true then s.choosePolled k else s) := by
  delta exec execPollChoose
  exact unlessHeld_free h _

end

theorem State.beginOrder_eq (s : State) (k : Fin 4) (e : Downlink) : s.beginOrder k e = s.adjustLine k fun l =>
    { l with
      queue := l.queue.tail,
      transaction := some { kind := .order e, outstation := e.outstation, phase := .sending, timer := none },
      previous := some .order } := by
  rw [State.beginOrder, State.beginTransaction, State.adjustLine_adjustLine]

/-- Settles O39. -/
theorem exceptionChoose : Obligations.ExceptionChoose := by
  intro s k hs h l isDue sent
  have due (x : Outstation) : x.checkDue = true ↔ isDue x := Outstation.checkDue_iff
  have none (hnone : ∀ e ∈ s.outstations, e.1 / 32 = k.val → ¬isDue e.2) : s.firstDue k = none :=
    State.find?_stations_none fun e he hl => Bool.eq_false_of_not_eq_true fun hd => hnone e he hl ((due e.2).1 hd)
  refine ⟨fun hidle => ?_, fun hp hm ht => ?_⟩
  · rw [exec_exceptionChoose h, if_neg]
    rw [State.lineFree_iff]
    rintro ⟨hp, -, hm, ht⟩
    exact hidle.elim (· hp) fun hidle => hidle.elim (· hm) (· ht)
  · have free : s.lineFree k = true := (State.lineFree_iff s k).2 ⟨by rw [hp]; exact nofun, hm, ht⟩
    have choose : exec (.exceptionChoose k) s = .next (s.chooseException k) := by
      rw [exec_exceptionChoose h, if_pos ⟨hp, free⟩]
    refine ⟨fun hq hnone => ?_, fun e queue hq hord => ?_, fun o x hx ho hd hleast hq => ?_⟩
    · have hq : (s.line k).queue = [] := hq
      rw [choose, State.chooseException, hq, none hnone]
    · have hq : (s.line k).queue = e :: queue := hq
      have order : s.chooseException k = s.beginOrder k e := by
        rw [State.chooseException, hq]
        cases hdue : s.firstDue k with
        | none => rfl
        | some found =>
          refine if_neg (hord.resolve_right fun hnone => ?_)
          rw [none hnone] at hdue
          cases hdue
      rw [choose, order, State.beginOrder_eq, State.adjustLine_eq, hq]
      rfl
    · have found : s.firstDue k = some (o, x) :=
        State.find?_stations hs hx ho ((due x).2 hd) fun e he hl hde => hleast e he hl ((due e.2).1 hde)
      have check : s.chooseException k = s.beginTransaction k (.check x.sweptFull) o .sweep := by
        rw [State.chooseException, found]
        cases hqueue : (s.line k).queue with
        | nil => rfl
        | cons e queue =>
          refine if_pos (hq.resolve_left fun hnil => ?_)
          rw [hqueue] at hnil
          cases hnil
      rw [choose, check, Outstation.sweptFull_eq]
      rfl

/-! ## The POLLED line -/

/-- The positions a POLLED line can pass over before it sweeps: each lowers a countdown that is above 1 (R28). -/
def State.pollWork (s : State) (k : Fin 4) : Nat := ((s.stations k).map fun e => e.2.countdown - 1).sum

/-- The state after a SILENT outstation is passed over (R28). -/
def State.passedOver (s : State) (k : Fin 4) (o : Nat) (x : Outstation) : State :=
  (s.setPollPosition k o).setCountdown o (x.countdown - 1)

theorem State.stations_passedOver (s : State) (k : Fin 4) (o : Nat) (x : Outstation) :
    (s.passedOver k o x).stations k = (s.stations k).map fun e =>
      (e.1, if e.1 = o then { e.2 with countdown := x.countdown - 1 } else e.2) := by
  rw [State.passedOver, State.setCountdown, State.adjustOutstation, Table.adjust_eq_mapAll]
  refine State.stations_mapAll (s.setPollPosition k o) k fun j y => ?_
  split <;> rfl

theorem State.pollWork_passedOver {s : State} (hw : s.outstations.wf = true) {k : Fin 4} {o : Nat} {x : Outstation}
    (hx : (o, x) ∈ s.stations k) (hc : 1 < x.countdown) : (s.passedOver k o x).pollWork k < s.pollWork k := by
  unfold State.pollWork
  rw [State.stations_passedOver, List.map_map]
  refine List.sum_lt_sum _ _ (fun e he => ?_) ⟨(o, x), hx, ?_⟩
  · rw [Function.comp_apply]
    dsimp only
    split
    · next heq =>
      have held := Table.get?_of_mem hw (State.mem_stations.1 he).1
      rw [heq, Table.get?_of_mem hw (State.mem_stations.1 hx).1] at held
      rw [← Option.some.inj held]
      exact Nat.sub_le _ _
    · exact le_refl _
  · rw [Function.comp_apply, if_pos rfl]
    dsimp only
    omega

theorem State.pollWork_lt_pollFuel {s : State} {k : Fin 4} (h : s.stations k ≠ []) : s.pollWork k < s.pollFuel k := by
  have bound : s.pollWork k ≤ (s.stations k).length * ((s.stations k).map fun e => e.2.countdown).foldl max 0 := by
    unfold State.pollWork
    refine (List.sum_le_card_nsmul _ (((s.stations k).map fun e => e.2.countdown).foldl max 0) fun n hn => ?_).trans ?_
    · obtain ⟨e, he, rfl⟩ := List.mem_map.1 hn
      exact (Nat.sub_le _ _).trans ((le_foldl_max _ 0).2 _ (List.mem_map_of_mem he))
    · rw [List.length_map, smul_eq_mul]
  have some := List.length_pos_iff.2 h
  rw [State.pollFuel, Nat.mul_add, Nat.mul_one]
  omega

theorem State.advancePoll_some {s : State} {k : Fin 4} {o : Nat} {x : Outstation}
    (hn : nextStation (s.stations k) (s.pollAddress k) = some (o, x)) (f : Nat) :
    advancePoll (f + 1) k s =
      if x.comms ≠ .silent then (s.setPollPosition k o).beginTransaction k (.sweep x.sweptFull) o .sweep
      else if x.countdown ≤ 1 then
        ((s.setPollPosition k o).setCountdown o (s.line k).settings.rv).beginTransaction k (.sweep x.sweptFull) o .sweep
      else advancePoll f k (s.passedOver k o x) := by
  rw [advancePoll, hn]
  rfl

/-- With more positions than there are to pass over, how many more makes no difference (log 25). -/
theorem State.advancePoll_fuel {k : Fin 4} (m : Nat) {s : State} (hw : s.outstations.wf = true) {n : Nat} (hm : s.pollWork k < m)
    (hn : s.pollWork k < n) : advancePoll m k s = advancePoll n k s := by
  induction m generalizing s n with
  | zero => omega
  | succ m ih =>
    obtain ⟨n, rfl⟩ := Nat.exists_eq_succ_of_ne_zero (show n ≠ 0 by omega)
    cases hnext : nextStation (s.stations k) (s.pollAddress k) with
    | none => rw [advancePoll, hnext, Nat.succ_eq_add_one, advancePoll, hnext]
    | some e =>
      obtain ⟨o, x⟩ := e
      rw [State.advancePoll_some hnext, Nat.succ_eq_add_one, State.advancePoll_some hnext]
      split
      · rfl
      · split
        · rfl
        · next hc =>
          have fewer := State.pollWork_passedOver hw (nextStation_mem hnext) (not_le.1 hc)
          exact ih (Table.wf_adjust hw o fun y => { y with countdown := x.countdown - 1 }) (by omega) (by omega)

/-- The next outstation of the poll cycle after a position (R27). -/
theorem State.nextStation_eq {s : State} (hs : s.TablesSound) {k : Fin 4} {o : Nat} {x : Outstation}
    (hx : (o, x) ∈ s.outstations) (ho : o / 32 = k.val) {position : Option Nat}
    (hcycle : (∃ q ∈ position, q < x.config.address
        ∧ ∀ e ∈ s.outstations, e.1 / 32 = k.val → q < e.2.config.address → x.config.address ≤ e.2.config.address)
      ∨ ((∀ q ∈ position, ∀ e ∈ s.outstations, e.1 / 32 = k.val → e.2.config.address ≤ q)
        ∧ ∀ e ∈ s.outstations, e.1 / 32 = k.val → x.config.address ≤ e.2.config.address)) :
    nextStation (s.stations k) position = some (o, x) := by
  have first (hleast : ∀ e ∈ s.outstations, e.1 / 32 = k.val → x.config.address ≤ e.2.config.address) :
      (s.stations k).head? = some (o, x) := by
    rw [← State.find?_stations (p := fun _ => true) hs hx ho rfl fun e he hl _ => hleast e he hl]
    cases s.stations k <;> rfl
  obtain ⟨q, rfl, hlt, hleast⟩ | ⟨hlast, hleast⟩ := hcycle
  · have found := State.find?_stations (p := fun e => q < e.2.config.address) hs hx ho (decide_eq_true hlt)
      fun e he hl hp => hleast e he hl (of_decide_eq_true hp)
    simp only [nextStation, found]
  · cases position with
    | none => exact first hleast
    | some q =>
      have passed : (s.stations k).find? (fun e => q < e.2.config.address) = none :=
        State.find?_stations_none fun e he hl => decide_eq_false (not_lt.2 (hlast q rfl e he hl))
      simp only [nextStation, passed, first hleast]

theorem Table.adjust_congr {α : Type} {t : Table α} (h : t.wf = true) {k : Nat} {x : α} (hx : t.get? k = some x) {f g : α → α}
    (hfg : f x = g x) : t.adjust k f = t.adjust k g := by
  rw [Table.adjust_eq_put h hx, Table.adjust_eq_put h hx, hfg]

theorem State.choosePolled_order {s : State} {k : Fin 4} {e : Downlink} {queue : List Downlink}
    (hq : (s.line k).queue = e :: queue) (hprev : (s.line k).previous ≠ some .order) : s.choosePolled k = s.beginOrder k e := by
  unfold State.choosePolled
  rw [hq]
  cases hp : (s.line k).previous with
  | none => rfl
  | some previous =>
    cases previous with
    | order => exact absurd hp hprev
    | sweep => rfl

theorem State.choosePolled_sweep {s : State} {k : Fin 4} (hq : (s.line k).queue = [] ∨ (s.line k).previous = some .order) :
    s.choosePolled k = advancePoll (s.pollFuel k) k s := by
  unfold State.choosePolled
  cases hqueue : (s.line k).queue with
  | nil => rfl
  | cons e queue => rw [hq.resolve_left (by simp [hqueue])]

theorem State.stations_eq_nil {s : State} {k : Fin 4} (h : ∀ e ∈ s.outstations, e.1 / 32 ≠ k.val) : s.stations k = [] :=
  List.eq_nil_iff_forall_not_mem.2 fun e he => by
    obtain ⟨he, hl⟩ := State.mem_stations.1 he
    exact h e he hl

/-- Settles O38. -/
theorem pollChoose : Obligations.PollChoose := by
  intro s k hs h l position inCycle sending
  have choose {t : State} (h : t.resetHeld = false) (hp : (t.line k).settings.personality = .polled) (hm : t.mode = .run)
      (ht : (t.line k).transaction = none) : exec (.pollChoose k) t = .next (t.choosePolled k) := by
    rw [exec_pollChoose h, if_pos ⟨hp, (State.lineFree_iff t k).2 ⟨by rw [hp]; exact nofun, hm, ht⟩⟩]
  refine ⟨fun hidle => ?_, fun hp hm ht => ⟨fun e queue hq hprev => ?_, fun hq => ⟨fun hnone => ?_, fun o x hx ho hcycle => ?_⟩⟩⟩
  · rw [exec_pollChoose h, if_neg]
    rw [State.lineFree_iff]
    rintro ⟨hp, -, hm, ht⟩
    exact hidle.elim (· hp) fun hidle => hidle.elim (· hm) (· ht)
  · have hq : (s.line k).queue = e :: queue := hq
    rw [choose h hp hm ht, State.choosePolled_order hq hprev, State.beginOrder_eq, State.adjustLine_eq, hq]
    rfl
  · rw [choose h hp hm ht, State.choosePolled_sweep hq, State.pollFuel, State.stations_eq_nil hnone]
    rfl
  · obtain ⟨⟨-, hw, -⟩, -⟩ := id hs
    have next : nextStation (s.stations k) (s.pollAddress k) = some (o, x) := State.nextStation_eq hs hx ho hcycle
    have stationed : (o, x) ∈ s.stations k := State.mem_stations.2 ⟨hx, ho⟩
    have fuel := State.pollWork_lt_pollFuel (List.ne_nil_of_mem stationed)
    obtain ⟨f, hf⟩ := Nat.exists_eq_succ_of_ne_zero (show s.pollFuel k ≠ 0 by omega)
    have swept := State.advancePoll_some next f
    rw [Nat.succ_eq_add_one] at hf
    rw [choose h hp hm ht, State.choosePolled_sweep hq, hf, swept]
    refine ⟨fun hc => ?_, fun hc hle => ?_, fun hc hgt => ?_⟩
    · have full : x.sweptFull = (decide (x.comms = .new) || x.fullDue) := by
        unfold Outstation.sweptFull
        cases hcomms : x.comms <;> simp_all
      rw [if_pos hc, full, State.setPollPosition, State.beginTransaction, State.adjustLine_adjustLine]
      rfl
    · have full : x.sweptFull = true := by simp [Outstation.sweptFull, hc]
      have order (t : State) (n : Nat) : (t.setCountdown o n).beginTransaction k (.sweep true) o .sweep
          = (t.beginTransaction k (.sweep true) o .sweep).setCountdown o n := rfl
      rw [if_neg (not_not.2 hc), if_pos hle, full, order, State.setPollPosition, State.beginTransaction,
        State.adjustLine_adjustLine]
      rfl
    · rw [if_neg (not_not.2 hc), if_neg (not_le.2 hgt)]
      have passed : s.passedOver k o x = { s with
          lines := s.lines.set k.val { l with pollPosition := some o } k.isLt,
          outstations := s.outstations.adjust o fun x => { x with countdown := x.countdown - 1 } } :=
        congrArg (s.setPollPosition k o).setOutstations (Table.adjust_congr hw (Table.get?_of_mem hw hx) rfl)
      have line : (s.passedOver k o x).line k = { l with pollPosition := some o } :=
        s.adjustLine_line_self k fun l => { l with pollPosition := some o }
      have canonical : (s.passedOver k o x).outstations.wf = true :=
        Table.wf_adjust hw o fun y => { y with countdown := x.countdown - 1 }
      have fewer := State.pollWork_passedOver hw stationed hgt
      have more : (s.passedOver k o x).stations k ≠ [] := by
        rw [State.stations_passedOver]
        exact fun he => List.ne_nil_of_mem stationed (List.map_eq_nil_iff.1 he)
      rw [← passed, choose (t := s.passedOver k o x) h (by rw [line]; exact hp) hm (by rw [line]; exact ht),
        State.choosePolled_sweep (by rw [line]; exact hq)]
      exact congrArg _ (State.advancePoll_fuel f canonical (by omega) (State.pollWork_lt_pollFuel more))

end Sys2Proof.Machine
end

section
/-! PROOFS. The point records of a TALLY and what each does (O36). -/

namespace Sys2Proof.Machine

/-! ## Reading a record -/

theorem readRecords_status (n : Nat) {lo : Byte} (hi : Byte) (rest : List Byte) (h : lo.getLsbD 2 = false) :
    readRecords (n + 1) (hi :: lo :: rest) = (readRecords n rest).map fun rs => ⟨hi ++ lo, none⟩ :: rs := by
  simp only [readRecords, h, Bool.false_eq_true, if_false]

theorem readRecords_count (n : Nat) {lo : Byte} (hi chi clo : Byte) (rest : List Byte) (h : lo.getLsbD 2 = true) :
    readRecords (n + 1) [hi, lo] = none ∧ readRecords (n + 1) [hi, lo, chi] = none
      ∧ readRecords (n + 1) (hi :: lo :: chi :: clo :: rest)
        = (readRecords n rest).map fun rs => ⟨hi ++ lo, some (chi ++ clo)⟩ :: rs := by
  simp only [readRecords, h, if_true, and_self]

theorem PointRecord.code_eq (r : PointRecord) : r.code = r.word.toNat / 64 := by
  have hw := r.word.isLt
  rw [PointRecord.code, BitVec.extractLsb'_toNat, Nat.shiftRight_eq_div_pow]
  omega

theorem Condition.code_ofBits (b : BitVec 2) : (Condition.ofBits b).code = b.toNat := by
  revert b
  decide

theorem PointRecord.condition_code (r : PointRecord) : r.condition.code = r.word.toNat % 4 := by
  rw [PointRecord.condition, Condition.code_ofBits, BitVec.extractLsb'_toNat, Nat.shiftRight_zero]

/-! ## What a record does -/

theorem State.applyRecord_status {s : State} {o a : Nat} {r : PointRecord} {c : Condition}
    (h : s.points.get? (pointKey o r.code) = some (.status a c)) :
    s.applyRecord o r = s.setPoints (s.points.put (pointKey o r.code) (.status a r.condition)) := by
  simp only [State.applyRecord, h]

theorem State.applyRecord_pending {s : State} {o : Nat} {r : PointRecord} {c : Condition} {n : Option Nat}
    (h : s.points.get? (pointKey o r.code) = some (.pending c n)) :
    s.applyRecord o r = s.setPoints (s.points.put (pointKey o r.code) (.pending r.condition r.countValue)) := by
  simp only [State.applyRecord, h]

theorem State.applyRecord_count {s : State} {o a v : Nat} {r : PointRecord} {b : Option Nat}
    (h : s.points.get? (pointKey o r.code) = some (.count a b)) (hv : r.countValue = some v) :
    s.applyRecord o r = (s.takeCount a b v).setPoints (s.points.put (pointKey o r.code) (.count a (some v))) := by
  simp only [State.applyRecord, h, hv]

theorem State.applyRecord_uncounted {s : State} {o a : Nat} {r : PointRecord} {b : Option Nat}
    (h : s.points.get? (pointKey o r.code) = some (.count a b)) (hv : r.countValue = none) : s.applyRecord o r = s := by
  simp only [State.applyRecord, h, hv]

theorem State.applyRecord_new {s : State} {o : Nat} {r : PointRecord} (h : s.points.get? (pointKey o r.code) = none) :
    s.applyRecord o r = s.createPlaceholder o r := by
  simp only [State.applyRecord, h]

/-- Settles O36: each part from the equation of readRecords or applyRecord for its case. -/
theorem tallyRecordsApply : Obligations.TallyRecordsApply := by
  refine ⟨fun _ => rfl, fun n hi lo chi clo rest => ⟨rfl, rfl, readRecords_status n hi rest,
    readRecords_count n hi chi clo rest⟩, fun r => ⟨r.code_eq, r.condition_code⟩, ?_⟩
  rintro s o a r c b n v _ rfl
  refine ⟨State.applyRecord_status, State.applyRecord_pending, fun h hv => ?_, fun h hv => ?_, fun h hl hp => ?_,
    fun h hfull => ?_⟩
  · exact State.applyRecord_uncounted h (by rw [PointRecord.countValue, hv, Option.map_none])
  · have takes : s.takeCount a b v.toNat = s.setAssets (s.assets.adjust a fun x => { x with window := x.window.map fun w =>
        match b with
        | none => w
        | some b =>
          let rise := if b ≤ v.toNat then v.toNat - b else v.toNat + 65536 - b
          if rise ≤ (x.config.loopProfile.map fun p => (s.loopProfile p).limit).getD 0 then
            { w with count := min 65535 (w.count + rise) }
          else { w with gap := true } }) := by
      refine congrArg (fun f => s.setAssets (s.assets.adjust a f)) (funext fun x => ?_)
      have limit : s.deltaLimit x = (x.config.loopProfile.map fun p => (s.loopProfile p).limit).getD 0 := by
        unfold State.deltaLimit
        cases x.config.loopProfile <;> rfl
      rw [limit]
      cases b <;> rfl
    rw [State.applyRecord_count h (by rw [PointRecord.countValue, hv, Option.map_some]), takes]
    cases b <;> rfl
  · rw [State.applyRecord_new h, State.createPlaceholder, if_pos ⟨hl, hp⟩]
    rfl
  · rw [State.applyRecord_new h, State.createPlaceholder, if_neg (fun room => hfull.elim (not_le.2 room.1) (not_le.2 room.2))]
    rfl

end Sys2Proof.Machine
end

section
/-! PROOFS. A TALLY or QUIET that is taken (O35). -/

namespace Sys2Proof.Machine

/-! ## The records of an answer, one after another -/

/-- What the records of an outstation's answer leave and change: the point map, the count of dropped records and the
windows, with UNRESOLVED notices for the node. -/
structure State.Intaken (o : Nat) (s t : State) : Prop where
  rest : t = { s with points := t.points, drops := t.drops, assets := t.assets, trunk := t.trunk }
  wf : s.assets.wf = true → t.assets.wf = true
  kept : ∀ a, (t.asset? a).map (fun y => (y.config, y.integrator, y.health))
    = (s.asset? a).map fun y => (y.config, y.integrator, y.health)
  unresolved : ∃ fs : List TrunkFrame,
    (∀ f ∈ fs, ∃ code held, f = ⟨s.trunk.node, .notice (.unresolved o code held)⟩) ∧ t.trunk = fs.foldl Trunk.place s.trunk

theorem State.Intaken.refl (o : Nat) (s : State) : s.Intaken o s := ⟨rfl, id, fun _ => rfl, [], nofun, rfl⟩

theorem State.Intaken.trans {o : Nat} {s t u : State} (h : s.Intaken o t) (k : t.Intaken o u) : s.Intaken o u := by
  refine ⟨?_, k.wf ∘ h.wf, fun a => (k.kept a).trans (h.kept a), ?_⟩
  · have first := h.rest
    have second := k.rest
    rw [first] at second
    exact second
  · obtain ⟨fs, hfs, ht⟩ := h.unresolved
    obtain ⟨gs, hgs, hu⟩ := k.unresolved
    have node : t.trunk.node = s.trunk.node := by rw [ht, (foldl_place_addresses fs s.trunk).1]
    refine ⟨fs ++ gs, fun f hf => ?_, by rw [List.foldl_append, ← ht, hu]⟩
    rcases List.mem_append.1 hf with hf | hf
    · exact hfs f hf
    · exact node ▸ hgs f hf

theorem State.intaken_setPoints (o : Nat) (s : State) (x : Table Point) : s.Intaken o (s.setPoints x) :=
  ⟨rfl, id, fun _ => rfl, [], nofun, rfl⟩

theorem State.intaken_takeCount (o : Nat) (s : State) (a : Nat) (b : Option Nat) (v : Nat) : s.Intaken o (s.takeCount a b v) where
  rest := rfl
  wf h := by
    rw [State.takeCount, State.adjustAsset, State.setAssets_assets]
    exact Table.wf_adjust h a _
  kept c := by
    rw [State.takeCount, State.asset?_adjustAsset]
    split
    · exact Option.map_map _ _ _
    · rfl
  unresolved := ⟨[], nofun, rfl⟩

theorem State.intaken_createPlaceholder (o : Nat) (s : State) (r : PointRecord) : s.Intaken o (s.createPlaceholder o r) := by
  unfold State.createPlaceholder
  split
  · exact ⟨rfl, id, fun _ => rfl, [_], by simp, rfl⟩
  · exact ⟨rfl, id, fun _ => rfl, [], nofun, rfl⟩

theorem State.intaken_applyRecord (o : Nat) (s : State) (r : PointRecord) : s.Intaken o (s.applyRecord o r) := by
  cases hp : s.points.get? (pointKey o r.code) with
  | none => exact State.applyRecord_new hp ▸ s.intaken_createPlaceholder o r
  | some p =>
    cases p with
    | status a c => exact State.applyRecord_status hp ▸ s.intaken_setPoints o _
    | pending c n => exact State.applyRecord_pending hp ▸ s.intaken_setPoints o _
    | count a b =>
      cases hv : r.countValue with
      | none => exact (State.applyRecord_uncounted hp hv).symm ▸ .refl o s
      | some v =>
        rw [State.applyRecord_count hp hv]
        exact (s.intaken_takeCount o a b v).trans (State.intaken_setPoints o _ _)

theorem State.intaken_applyRecords (o : Nat) (rs : List PointRecord) (s : State) :
    s.Intaken o (rs.foldl (fun t r => t.applyRecord o r) s) := by
  induction rs generalizing s with
  | nil => exact .refl o s
  | cons r rs ih => exact (s.intaken_applyRecord o r).trans (ih _)

/-- Two states that an answer's records find alike. -/
structure State.SameIntake (s t : State) : Prop where
  points : t.points = s.points
  drops : t.drops = s.drops
  assets : t.assets = s.assets
  loopProfiles : t.loopProfiles = s.loopProfiles

theorem State.SameIntake.applyRecord {s t : State} (h : s.SameIntake t) (o : Nat) (r : PointRecord) :
    (s.applyRecord o r).SameIntake (t.applyRecord o r) := by
  obtain ⟨hp, hd, ha, hl⟩ := h
  cases hpt : s.points.get? (pointKey o r.code) with
  | none =>
    rw [State.applyRecord_new hpt, State.applyRecord_new (hp ▸ hpt)]
    unfold State.createPlaceholder State.pendingPoints
    rw [hp]
    split
    · exact ⟨rfl, hd, ha, hl⟩
    · exact ⟨hp, congrArg bump hd, ha, hl⟩
  | some p =>
    cases p with
    | status a c =>
      rw [State.applyRecord_status hpt, State.applyRecord_status (hp ▸ hpt), hp]
      exact ⟨rfl, hd, ha, hl⟩
    | pending c n =>
      rw [State.applyRecord_pending hpt, State.applyRecord_pending (hp ▸ hpt), hp]
      exact ⟨rfl, hd, ha, hl⟩
    | count a b =>
      cases hv : r.countValue with
      | none =>
        rw [State.applyRecord_uncounted hpt hv, State.applyRecord_uncounted (hp ▸ hpt) hv]
        exact ⟨hp, hd, ha, hl⟩
      | some v =>
        rw [State.applyRecord_count hpt hv, State.applyRecord_count (hp ▸ hpt) hv, hp]
        have limit : t.deltaLimit = s.deltaLimit := by
          funext x
          unfold State.deltaLimit State.loopProfile
          rw [hl]
        refine ⟨rfl, hd, ?_, hl⟩
        show (t.takeCount a b v).assets = (s.takeCount a b v).assets
        unfold State.takeCount State.adjustAsset
        rw [State.setAssets_assets, State.setAssets_assets, ha, limit]

theorem State.SameIntake.applyRecords {s t : State} (h : s.SameIntake t) (o : Nat) (rs : List PointRecord) :
    (rs.foldl (fun t r => t.applyRecord o r) s).SameIntake (rs.foldl (fun t r => t.applyRecord o r) t) := by
  induction rs generalizing s t with
  | nil => exact h
  | cons r rs ih => exact ih (h.applyRecord o r)

/-! ## The receiver's tests -/

theorem State.receiving_iff {s : State} {k : Fin 4} :
    s.receiving k = true ↔ (s.line k).settings.personality ≠ .off ∧ s.mode = .run := by
  unfold State.receiving
  rw [decide_eq_true_eq]
  unfold State.lineState
  by_cases hp : (s.line k).settings.personality = .off
  · simp [hp]
  · by_cases hm : s.mode = .run
    · cases (s.line k).transaction <;> simp [hp, hm]
      grind
    · simp [hp, hm]

section
variable {s : State} {k : Fin 4} (h : s.resetHeld = false)
include h

theorem exec_tally (addr : Byte) (payload : List Byte) :
    exec (.tally k addr payload) s = .next (s.fieldFrame k addr tallyKind payload) := by
  delta exec execTally
  exact unlessHeld_free h _

theorem exec_quiet (addr : Byte) (payload : List Byte) :
    exec (.quiet k addr payload) s = .next (s.fieldFrame k addr quietKind payload) := by
  delta exec execQuiet
  exact unlessHeld_free h _

theorem exec_stray (addr kind : Byte) (payload : List Byte) :
    exec (.stray k addr kind payload) s = .next (s.fieldFrame k addr kind payload) := by
  delta exec execStray
  exact unlessHeld_free h _

theorem exec_fieldFrameDiscard (bytes : List Byte) :
    exec (.fieldFrameDiscard k bytes) s = .next (s.fieldBytes k bytes) := by
  delta exec execFieldFrameDiscard
  exact unlessHeld_free h _

end

theorem State.fieldFrame_taken {s : State} {k : Fin 4} (h : s.receiving k = true) {payload : List Byte}
    (hlen : payload.length + 6 ≤ (s.line k).settings.fmax) (addr kind : Byte) :
    s.fieldFrame k addr kind payload = (s.setReceived k []).completeFrame k addr kind payload := by
  unfold State.fieldFrame
  rw [h, if_neg (by decide)]
  exact if_neg (not_lt.2 hlen)

theorem readAnswer_tally (n : Byte) (rest : List Byte) : readAnswer tallyKind (n :: rest) =
    if Config.tallyCapacity < n.toNat then .error .overlong
    else match readRecords n.toNat rest with
      | none => .error .checkError
      | some rs => .ok rs := rfl

/-- The line after its held bytes are spent: the same but for them. -/
theorem State.line_setReceived (s : State) (k : Fin 4) (bytes : List Byte) :
    (s.setReceived k bytes).line k = { s.line k with received := bytes } := Vector.set_get _ _ _

theorem State.endedBy_eq_filter {s : State} {k : Fin 4} (hp : (s.line k).settings.personality ≠ .off) (hm : s.mode = .run)
    (o : Nat) : s.endedBy k o = (s.line k).transaction.filter fun t => t.outstation = o ∧ t.phase ≠ .sending := by
  unfold State.endedBy
  cases ht : (s.line k).transaction with
  | none =>
    have idle : s.awaitedOn k = none := Option.eq_none_iff_forall_ne_some.2 fun t h =>
      absurd (ht.symm.trans (State.awaitedOn_iff.1 h).2.2.1) nofun
    rw [idle]
    rfl
  | some t =>
    by_cases hphase : t.phase = .sending
    · have idle : s.awaitedOn k = none := Option.eq_none_iff_forall_ne_some.2 fun u h => by
        obtain ⟨-, -, hu, hphase'⟩ := State.awaitedOn_iff.1 h
        obtain rfl := Option.some.inj (ht.symm.trans hu)
        exact hphase' hphase
      rw [idle]
      simp [Option.filter, hphase]
    · rw [State.awaitedOn_iff.2 ⟨hp, hm, ht, hphase⟩]
      simp [Option.filter, hphase]

/-! ## The taken answer -/

/-- The relay policy in force selects the records (R59, R60). -/
theorem relaySelection_eq (s : State) (policy : RelayPolicy) (o : Nat) (rs : List PointRecord) :
    relaySelection (s.policyInForce policy) s.points o rs = match policy with
      | .none => []
      | .all => if s.storm.on then rs.filter (recordChanged s.points o) else rs
      | .changes => rs.filter (recordChanged s.points o) := by
  cases policy with
  | none => rfl
  | changes => rfl
  | all =>
    cases hs : s.storm.on <;> simp only [State.policyInForce, relaySelection, hs] <;> rfl

theorem State.relayRecords_eq (s : State) (o : Nat) (selection : List PointRecord) : s.relayRecords o selection
    = s.setTrunk ((if selection = [] then [] else [(⟨s.trunk.node, .notice (.relay o selection)⟩ : TrunkFrame)]).foldl
        Trunk.place s.trunk) := by
  cases selection <;> rfl

theorem State.replyDelivered_eq (s : State) (ended : Option Transaction) : s.replyDelivered ended
    = s.setTrunk ((match ended with
        | some ⟨.order e, _, _, _⟩ => [(⟨e.addr, .reply e.tag .done []⟩ : TrunkFrame)]
        | _ => []).foldl Trunk.place s.trunk) := by
  obtain _ | ⟨kind, o, phase, frame⟩ := ended
  · rfl
  · cases kind <;> rfl

/-- What ends a set full-due flag: a SWEEP or check that carried FULL (R32). -/
theorem TransactionKind.carriesFull_iff (ended : Option Transaction) :
    (ended.map fun t => t.kind.carriesFull).getD false = true
      ↔ ended.map (fun t => t.kind) = some (.sweep true) ∨ ended.map (fun t => t.kind) = some (.check true) := by
  obtain _ | ⟨kind, o, phase, frame⟩ := ended
  · simp
  · cases kind <;> simp [TransactionKind.carriesFull]

/-- The line unit's part of a taken answer, the bytes held of the frame spent. -/
theorem State.lineTakes_eq (s : State) (k : Fin 4) (o : Nat) (x : Outstation) (ended : Option Transaction) :
    (s.setReceived k []).lineTakes k o x ended = { s with
      outstations := s.outstations.put o { x with
        comms := .online,
        retry := 0,
        lastHeard := some (s.time.runMinute * 60 + s.time.second),
        fullDue := if ended.map (fun t => t.kind) = some (.sweep true)
          ∨ ended.map (fun t => t.kind) = some (.check true) then false else x.fullDue,
        integrityDue := false },
      lines := s.lines.set k.val
        { s.line k with
          transaction := if ended = none then (s.line k).transaction else none,
          counters := { (s.line k).counters with good := min 65535 ((s.line k).counters.good + 1) },
          received := [] }
        k.isLt,
      trunk := (if x.comms = .online then [] else [(⟨s.trunk.node, .notice (.link o true)⟩ : TrunkFrame)]).foldl
        Trunk.place s.trunk } := by
  have heard (now : Nat) : x.heard now ((ended.map fun t => t.kind.carriesFull).getD false) = { x with
      comms := .online, retry := 0, lastHeard := some now, integrityDue := false,
      fullDue := if ended.map (fun t => t.kind) = some (.sweep true)
        ∨ ended.map (fun t => t.kind) = some (.check true) then false else x.fullDue } := by
    rw [Outstation.heard]
    exact congrArg (fun b => Outstation.mk _ _ _ _ _ b _) (if_congr (TransactionKind.carriesFull_iff ended) rfl rfl)
  have counted : (s.setReceived k []).countOn k .goodFrame = s.adjustLine k fun l =>
      { l with received := [], counters := l.counters.goodFrame } := State.adjustLine_adjustLine _ _ _ _
  have dropped : (s.adjustLine k fun l => { l with received := [], counters := l.counters.goodFrame }).setTransaction k none
      = s.adjustLine k fun l => { l with received := [], counters := l.counters.goodFrame, transaction := none } :=
    State.adjustLine_adjustLine _ _ _ _
  unfold State.lineTakes
  dsimp only
  rw [heard, counted]
  by_cases hx : x.comms = .online
  · rw [if_pos hx, if_pos hx]
    cases ended with
    | none => rfl
    | some t => exact congrArg (fun u : State => u.setOutstations _) dropped
  · rw [if_neg hx, if_neg hx]
    cases ended with
    | none => rfl
    | some t => exact congrArg (fun u : State => (u.setOutstations _).setTrunk _) dropped

theorem State.findSender_taken {s : State} (hs : s.TablesSound) {k : Fin 4} {addr : Byte} {o : Nat} {x : Outstation}
    (hx : (o, x) ∈ s.outstations) (ho : o / 32 = k.val) (ha : x.config.address = addr.toNat)
    (hpolled : (s.line k).settings.personality = .polled → s.endedBy k o ≠ none) : s.findSender k addr = .ok (o, x) := by
  have found : s.stationAt k addr.toNat = some (o, x) :=
    State.find?_stations hs hx ho (decide_eq_true ha) fun e _ _ hp => (ha.trans (of_decide_eq_true hp).symm).le
  unfold State.findSender
  rw [found]
  refine if_neg fun ⟨hp, hnone⟩ => hpolled hp (Option.isNone_iff_eq_none.1 hnone)

/-- The sample set, from its members (R62). -/
theorem State.sampleSet_eq {s : State} (h : s.assets.wf = true) {o : Nat} {link : Option Nat} {as : List Nat}
    (has : as.Pairwise (· < ·)) (hmem : ∀ a, a ∈ as ↔ s.asset? a ≠ none
      ∧ (link = some a ∨ ∃ e ∈ s.points, e.1 / 1024 = o ∧ e.2.statusAsset = some a)) : s.sampleSet o link = as := by
  refine (Table.keysWhere_pairwise h _).eq_of_mem_iff has fun a => ?_
  rw [Table.mem_keysWhere h, hmem]
  simp only [decide_eq_true_eq, List.any_eq_true, exists_and_right]
  exact and_congr_left' Option.ne_none_iff_exists'.symm

theorem State.completeFrame_taken {s : State} {k : Fin 4} {addr kind : Byte} {payload : List Byte} {rs : List PointRecord}
    {o : Nat} {x : Outstation} (hr : readAnswer kind payload = .ok rs) (hs : s.findSender k addr = .ok (o, x)) :
    s.completeFrame k addr kind payload = s.takeAnswer k o x rs := by
  unfold State.completeFrame
  rw [hr]
  dsimp only
  rw [hs]

/-- Settles O35: the receiver's tests pass, and each unit's part of the answer has its closed form. -/
theorem answerTaken : Obligations.AnswerTaken := by
  intro s k addr payload rs o x c hs h hm hp hlen hc hx ho ha ended hended hpolled selected online relayed delivered heard
    applied sampled hsorted hmem answered
  have receiving : s.receiving k = true := State.receiving_iff.2 ⟨hp, hm⟩
  have spent := s.line_setReceived k []
  have ends : (s.setReceived k []).endedBy k o = ended := by
    rw [State.endedBy_eq_filter (s := s.setReceived k []) (by rwa [spent]) hm, spent, hended]
  have sender : (s.setReceived k []).findSender k addr = .ok (o, x) :=
    State.findSender_taken (s := s.setReceived k []) hs hx ho ha (by rw [spent, ends]; exact hpolled)
  have takes : exec c s = .next ((s.setReceived k []).takeAnswer k o x rs) := by
    obtain ⟨rfl, rfl⟩ | ⟨n, rest, rfl, rfl, hn, hrs⟩ := hc
    · rw [exec_quiet h, State.fieldFrame_taken receiving hlen, State.completeFrame_taken rfl sender]
    · have records : readAnswer tallyKind (n :: rest) = .ok rs := by
        rw [readAnswer_tally, if_neg (not_lt.2 hn), hrs]
      rw [exec_tally h, State.fieldFrame_taken receiving hlen, State.completeFrame_taken records sender]
  have intake : heard.Intaken o applied := heard.intaken_applyRecords o rs
  have alike := State.SameIntake.applyRecords (s := s) (t := heard) ⟨rfl, rfl, rfl, rfl⟩ o rs
  obtain ⟨unresolved, hunresolved, hintake⟩ := intake.unresolved
  have heardNode : heard.trunk.node = s.trunk.node := (foldl_place_addresses online s.trunk).1
  have node : applied.trunk.node = s.trunk.node := by
    rw [hintake, (foldl_place_addresses unresolved heard.trunk).1, heardNode]
  have relay : applied.relayRecords o (relaySelection (heard.policyInForce x.config.policy) heard.points o rs)
      = { applied with trunk := relayed.foldl Trunk.place applied.trunk } := by
    rw [State.relayRecords_eq, relaySelection_eq, node]
    rfl
  have present (a : Nat) : applied.asset? a ≠ none ↔ s.asset? a ≠ none := by
    have kept := congrArg Option.isNone (intake.kept a)
    simp only [Option.isNone_map] at kept
    exact not_congr (Option.isNone_iff_eq_none.symm.trans (kept ▸ Option.isNone_iff_eq_none))
  have samples : (({ applied with trunk := relayed.foldl Trunk.place applied.trunk } : State).sampleSet o x.config.link)
      = sampled := State.sampleSet_eq (intake.wf hs.1.1) hsorted fun a => (hmem a).trans (and_congr_left' (present a).symm)
  have points : heard.takeIntoPoints o x rs = answered := by
    unfold State.takeIntoPoints
    dsimp only
    rw [relay, samples]
  have frame : FaultFrame _ answered := faultFrame_sampleAll _ _
  obtain ⟨notices, hnotices, hanswered⟩ : State.Notified _ answered :=
    (FaultOps.foldl faultOps_sample sampled { applied with trunk := relayed.foldl Trunk.place applied.trunk }).notified
  refine ⟨?_, frame.points.trans alike.points, frame.drops.trans alike.drops, fun a => ?_, fun a => ?_, fun a hna => ?_,
    ⟨unresolved, notices, ?_, hintake, ?_, ?_⟩, ?_⟩
  · rw [takes, State.takeAnswer, ends, State.lineTakes_eq]
    show Host.Outcome.next ((heard.takeIntoPoints o x rs).replyDelivered ended).settleBeacons = _
    rw [points, State.replyDelivered_eq]
    rfl
  · rw [frame.windows]
    exact congrArg (fun t : Table Asset => (t.get? a).map Asset.window) alike.assets
  · have kept := congrArg (Option.map Prod.fst) (intake.kept a)
    simp only [Option.map_map] at kept
    exact (frame.configs a).trans kept
  · have kept := congrArg (Option.map Prod.snd) (intake.kept a)
    simp only [Option.map_map] at kept
    exact (State.sampleAll_others sampled _ hna).trans kept
  · rwa [heardNode] at hunresolved
  · intro f hf
    have own := hnotices f hf
    rwa [(foldl_place_addresses relayed applied.trunk).1, node] at own
  · rw [hanswered]
    show notices.foldl Trunk.place (relayed.foldl Trunk.place applied.trunk) = _
    rw [hintake]
    simp only [List.foldl_append]
    rfl
  · have first := intake.rest
    have second := frame.eq_with
    have points : answered.points = applied.points := frame.points
    have drops : answered.drops = applied.drops := frame.drops
    rw [points, drops]
    clear_value answered applied
    rw [first] at second
    exact second

end Sys2Proof.Machine
end

section
/-! PROOFS. The receivers: frames found in bytes, and what is discarded (O5, O37). -/

namespace Sys2Proof.Machine

/-! ## Frames in bytes -/

theorem hunt_noise {noise : List Byte} (h : startByte ∉ noise) : hunt noise = none := by
  induction noise with
  | nil => rfl
  | cons b noise ih =>
    obtain ⟨hb, hrest⟩ := not_or.1 (List.mem_cons.not.1 h)
    rw [hunt, if_neg (Ne.symm hb), ih hrest]

theorem hunt_append {noise : List Byte} (h : startByte ∉ noise) (rest : List Byte) :
    hunt (noise ++ startByte :: rest) = some rest := by
  induction noise with
  | nil => exact if_pos rfl
  | cons b noise ih =>
    obtain ⟨hb, hrest⟩ := not_or.1 (List.mem_cons.not.1 h)
    rw [List.cons_append, hunt, if_neg (Ne.symm hb), ih hrest]

section
variable {limit : Nat}

theorem scanFrame_short {rest : List Byte} (h : rest.length < 3) : scanFrame limit rest = .incomplete := by
  rcases rest with _ | ⟨a, _ | ⟨b, _ | ⟨c, rest⟩⟩⟩
  · rfl
  · rfl
  · rfl
  · simp only [List.length_cons] at h
    omega

theorem scanFrame_held {n : Byte} {fields : List Byte} (hn : n.toNat ≤ limit) (hf : fields.length < n.toNat + 2)
    (addr kind : Byte) : scanFrame limit (addr :: kind :: n :: fields) = .incomplete := by
  rw [scanFrame, if_neg (not_lt.2 hn), if_pos hf]

theorem scanFrame_over {n : Byte} (hn : limit < n.toNat) (addr kind : Byte) (rest : List Byte) :
    scanFrame limit (addr :: kind :: n :: rest) = .lengthOver n.toNat := by
  rw [scanFrame, if_pos hn]

/-- A frame whose bytes are all there is judged by its check. -/
theorem scanFrame_whole {payload : List Byte} (hlimit : payload.length ≤ limit) (hlen : payload.length ≤ 255)
    (addr kind hi lo : Byte) (rest : List Byte) :
    scanFrame limit (addr :: kind :: BitVec.ofNat 8 payload.length :: (payload ++ hi :: lo :: rest))
      = if beWord (crc16 (addr :: kind :: BitVec.ofNat 8 payload.length :: payload)) = [hi, lo] then
          .complete addr kind payload rest
        else .checkFailed := by
  have len : (BitVec.ofNat 8 payload.length).toNat = payload.length := by
    rw [BitVec.toNat_ofNat]
    omega
  have whole : ¬(payload ++ hi :: lo :: rest).length < payload.length + 2 := by
    simp only [List.length_append, List.length_cons]
    omega
  rw [scanFrame, len, if_neg (not_lt.2 hlimit), if_neg whole]
  dsimp only
  rw [List.take_left, List.drop_left, ← List.drop_drop, List.drop_left]
  rfl

/-- The check of a frame is two bytes. -/
theorem beWord_pair (w : Word) : ∃ hi lo : Byte, beWord w = [hi, lo] := ⟨_, _, rfl⟩

theorem scanFrame_complete {payload : List Byte} (hlimit : payload.length ≤ limit) (hlen : payload.length ≤ 255)
    (addr kind : Byte) (rest : List Byte) :
    ∃ after, frameBytes addr kind payload ++ rest = startByte :: after
      ∧ scanFrame limit after = .complete addr kind payload rest := by
  obtain ⟨hi, lo, hcrc⟩ := beWord_pair (crc16 (addr :: kind :: BitVec.ofNat 8 payload.length :: payload))
  refine ⟨addr :: kind :: BitVec.ofNat 8 payload.length :: (payload ++ hi :: lo :: rest), ?_, ?_⟩
  · simp [frameBytes, hcrc]
  · rw [scanFrame_whole hlimit hlen, if_pos hcrc]

end

/-! ## The trunk receiver -/

theorem State.trunkNext_lengthOver {s : State} {bytes rest : List Byte} {n : Nat} (hunted : hunt bytes = some rest)
    (hscan : scanFrame 250 rest = .lengthOver n) : s.trunkNext bytes = some (.trunkCheckFail .lengthAbove250, rest) := by
  unfold State.trunkNext
  rw [hunted]
  dsimp only
  rw [hscan]

theorem State.trunkNext_checkFailed {s : State} {bytes rest : List Byte} (hunted : hunt bytes = some rest)
    (hscan : scanFrame 250 rest = .checkFailed) : s.trunkNext bytes = some (.trunkCheckFail .checkMismatch, rest) := by
  unfold State.trunkNext
  rw [hunted]
  dsimp only
  rw [hscan]

theorem State.trunkNext_complete {s : State} {bytes rest after payload : List Byte} {addr kind : Byte}
    (hunted : hunt bytes = some rest) (hscan : scanFrame 250 rest = .complete addr kind payload after) :
    s.trunkNext bytes = some (s.trunkCommand addr kind payload, after) := by
  unfold State.trunkNext
  rw [hunted]
  dsimp only
  rw [hscan]

/-- Settles O5: the hunt passes over the noise, and the scan behind the start byte decides. -/
theorem trunkReceiverFindsFrames : Obligations.TrunkReceiverFindsFrames := by
  refine fun s => ⟨fun noise payload rest addr kind hnoise hlen => ?_, fun noise rest addr kind len hnoise hlen => ?_,
    fun noise payload rest addr kind hi lo hnoise hlen hcrc => ?_, fun cause h => ?_⟩
  · obtain ⟨after, hbytes, hscan⟩ := scanFrame_complete (limit := 250) hlen (by omega) addr kind rest
    rw [List.append_assoc, hbytes]
    exact State.trunkNext_complete (hunt_append hnoise after) hscan
  · exact State.trunkNext_lengthOver (hunt_append hnoise _) (scanFrame_over hlen addr kind rest)
  · rw [List.append_assoc]
    refine State.trunkNext_checkFailed (hunt_append hnoise _) ?_
    rw [List.cons_append, List.cons_append, List.cons_append,
      scanFrame_whole hlen (by omega), if_neg (Ne.symm hcrc)]
  · delta exec execTrunkCheckFail
    exact unlessHeld_free h _

end Sys2Proof.Machine
end

section
/-! PROOFS. Field bytes and frames that are discarded (O37). -/

namespace Sys2Proof.Machine

/-! ## Arriving bytes, by what the receiver finds in them -/

section
variable {s : State} {k : Fin 4} {new rest : List Byte} (receiving : s.receiving k = true)
include receiving

theorem State.field_noise (hunted : hunt ((s.line k).received ++ new) = none) :
    s.fieldBytes k new = s.setReceived k [] ∧ s.fieldNext k new = (.fieldFrameDiscard k new, []) := by
  unfold State.fieldBytes State.fieldNext
  rw [receiving, if_neg (by decide), if_neg (by decide), hunted]
  exact ⟨rfl, rfl⟩

variable (hunted : hunt ((s.line k).received ++ new) = some rest)
include hunted

theorem State.field_incomplete (hscan : scanFrame ((s.line k).settings.fmax - 6) rest = .incomplete) :
    s.fieldBytes k new = s.setReceived k (startByte :: rest) ∧ s.fieldNext k new = (.fieldFrameDiscard k new, []) := by
  unfold State.fieldBytes State.fieldNext
  rw [receiving, if_neg (by decide), if_neg (by decide), hunted]
  dsimp only
  rw [hscan]
  exact ⟨rfl, rfl⟩

theorem State.field_lengthOver {n : Nat} (hscan : scanFrame ((s.line k).settings.fmax - 6) rest = .lengthOver n) :
    s.fieldBytes k new = (s.setReceived k []).countOn k (fun c => c.discard .overlong)
      ∧ s.fieldNext k new = (.fieldFrameDiscard k new, rest) := by
  unfold State.fieldBytes State.fieldNext
  rw [receiving, if_neg (by decide), if_neg (by decide), hunted]
  dsimp only
  rw [hscan]
  exact ⟨rfl, rfl⟩

theorem State.field_checkFailed (hscan : scanFrame ((s.line k).settings.fmax - 6) rest = .checkFailed) :
    s.fieldBytes k new = (s.setReceived k []).countOn k (fun c => c.discard .checkError)
      ∧ s.fieldNext k new = (.fieldFrameDiscard k new, rest) := by
  unfold State.fieldBytes State.fieldNext
  rw [receiving, if_neg (by decide), if_neg (by decide), hunted]
  dsimp only
  rw [hscan]
  exact ⟨rfl, rfl⟩

theorem State.field_complete {addr kind : Byte} {payload after : List Byte}
    (hscan : scanFrame ((s.line k).settings.fmax - 6) rest = .complete addr kind payload after) :
    s.fieldBytes k new = (s.setReceived k []).completeFrame k addr kind payload
      ∧ s.fieldNext k new = (s.fieldCommand k addr kind payload new, after) := by
  unfold State.fieldBytes State.fieldNext
  rw [receiving, if_neg (by decide), if_neg (by decide), hunted]
  dsimp only
  rw [hscan]
  exact ⟨rfl, rfl⟩

end

/-! ## Frames of a line that does not receive, and overlong frames -/

theorem State.not_receiving {s : State} {k : Fin 4} (h : (s.line k).settings.personality = .off ∨ s.mode ≠ .run) :
    s.receiving k = false :=
  Bool.eq_false_of_not_eq_true fun hr => h.elim (State.receiving_iff.1 hr).1 fun hm => hm (State.receiving_iff.1 hr).2

theorem State.fieldFrame_deaf {s : State} {k : Fin 4} (h : s.receiving k = false) (addr kind : Byte) (payload : List Byte) :
    s.fieldFrame k addr kind payload = s := by
  unfold State.fieldFrame
  rw [h]
  exact if_pos rfl

theorem State.fieldBytes_deaf {s : State} {k : Fin 4} (h : s.receiving k = false) (bytes : List Byte) :
    s.fieldBytes k bytes = s ∧ s.fieldNext k bytes = (.fieldFrameDiscard k bytes, []) := by
  unfold State.fieldBytes State.fieldNext
  rw [h]
  exact ⟨if_pos rfl, if_pos rfl⟩

theorem State.fieldFrame_overlong {s : State} {k : Fin 4} (h : s.receiving k = true) {payload : List Byte}
    (hlen : (s.line k).settings.fmax < payload.length + 6) (addr kind : Byte) :
    s.fieldFrame k addr kind payload = (s.setReceived k []).countOn k fun c => c.discard .overlong := by
  unfold State.fieldFrame
  rw [h, if_neg (by decide)]
  exact if_pos hlen

/-! ## Whole frames by the first failing test -/

theorem readAnswer_notAnswer {kind : Byte} (ht : kind ≠ tallyKind) (hq : kind ≠ quietKind) (payload : List Byte) :
    readAnswer kind payload = .error .checkError := by
  unfold readAnswer
  rw [if_neg hq, if_pos ht]

theorem State.completeFrame_unread {s : State} {k : Fin 4} {addr kind : Byte} {payload : List Byte} {why : FieldDiscard}
    (h : readAnswer kind payload = .error why) :
    s.completeFrame k addr kind payload = s.countOn k fun c => c.discard why := by
  unfold State.completeFrame
  rw [h]

theorem State.completeFrame_unsent {s : State} {k : Fin 4} {addr kind : Byte} {payload : List Byte} {rs : List PointRecord}
    {why : FieldDiscard} (hr : readAnswer kind payload = .ok rs) (hs : s.findSender k addr = .error why) :
    s.completeFrame k addr kind payload = s.countOn k fun c => c.discard why := by
  unfold State.completeFrame
  rw [hr]
  dsimp only
  rw [hs]

theorem State.findSender_unknown {s : State} {k : Fin 4} {addr : Byte}
    (h : ∀ e ∈ s.outstations, e.1 / 32 = k.val → e.2.config.address ≠ addr.toNat) :
    s.findSender k addr = .error .unknownStation := by
  have absent : s.stationAt k addr.toNat = none :=
    State.find?_stations_none fun e he hl => decide_eq_false (h e he hl)
  unfold State.findSender
  rw [absent]

theorem State.findSender_stray {s : State} (hs : s.TablesSound) {k : Fin 4} {addr : Byte} {o : Nat} {x : Outstation}
    (hx : (o, x) ∈ s.outstations) (ho : o / 32 = k.val) (ha : x.config.address = addr.toNat)
    (hp : (s.line k).settings.personality = .polled) (hended : s.endedBy k o = none) :
    s.findSender k addr = .error .stray := by
  have found : s.stationAt k addr.toNat = some (o, x) :=
    State.find?_stations hs hx ho (decide_eq_true ha) fun e _ _ hp => (ha.trans (of_decide_eq_true hp).symm).le
  unfold State.findSender
  rw [found]
  exact if_pos ⟨hp, Option.isNone_iff_eq_none.2 hended⟩

/-- The command of a whole frame acts as the bytes that bring it. -/
theorem exec_fieldCommand {s : State} {k : Fin 4} (h : s.resetHeld = false) {addr kind : Byte} {payload new : List Byte}
    (hbytes : s.fieldBytes k new = s.fieldFrame k addr kind payload) :
    exec (s.fieldCommand k addr kind payload new) s = exec (.fieldFrameDiscard k new) s := by
  rw [exec_fieldFrameDiscard h, hbytes, State.fieldCommand]
  split
  · exact exec_stray h addr kind payload
  · split
    · next hk => exact hk ▸ exec_tally h addr payload
    · split
      · next hk => exact hk ▸ exec_quiet h addr payload
      · rw [exec_fieldFrameDiscard h, hbytes]

/-- A frame counted as discarded, the bytes held of it spent. -/
theorem State.spent_countOn (s : State) (k : Fin 4) (f : LineCounters → LineCounters) :
    (s.setReceived k []).countOn k f = { s with
      lines := s.lines.set k.val { s.line k with counters := f (s.line k).counters, received := [] } k.isLt } :=
  State.adjustLine_adjustLine s k _ _

/-- Settles O37: the hunt and the scan decide what arriving bytes are, and the first failing test what a whole frame counts. -/
theorem fieldFramesDiscarded : Obligations.FieldFramesDiscarded := by
  intro s k addr kind len payload rest noise new h l holding counted crc
  refine ⟨?_, ?_, fun hdeaf => ?_, fun hp hm hfmax hnoise => ?_⟩
  · rw [exec_stray h, exec_tally h]
    rfl
  · rw [exec_stray h, exec_quiet h]
    rfl
  · have deaf := State.not_receiving hdeaf
    refine ⟨(State.fieldBytes_deaf deaf rest).2, ?_⟩
    simp only [List.forall_mem_cons, List.not_mem_nil, false_imp_iff, implies_true, exec_tally h, exec_quiet h,
      exec_stray h, exec_fieldFrameDiscard h, State.fieldFrame_deaf deaf, (State.fieldBytes_deaf deaf rest).1, and_self]
  have receiving : s.receiving k = true := State.receiving_iff.2 ⟨hp, hm⟩
  have discard (why : FieldDiscard) : (s.setReceived k []).countOn k (fun c => c.discard why)
      = counted fun c => c.discard why := s.spent_countOn k _
  refine ⟨fun hbytes => ?_, fun hbytes hheld => ?_, fun hbytes hover => ?_, fun hover => ?_, fun hlen hlen' => ?_⟩
  · obtain ⟨taken, next⟩ := State.field_noise receiving (hbytes ▸ hunt_noise hnoise)
    rw [exec_fieldFrameDiscard h, taken]
    exact ⟨rfl, next⟩
  · have scan : scanFrame (l.settings.fmax - 6) rest = .incomplete := by
      obtain hshort | ⟨a, b, n, fields, rfl, hn, hf⟩ := hheld
      · exact scanFrame_short hshort
      · exact scanFrame_held (by omega) hf a b
    obtain ⟨taken, next⟩ := State.field_incomplete receiving (hbytes ▸ hunt_append hnoise rest) scan
    rw [exec_fieldFrameDiscard h, taken]
    exact ⟨rfl, next⟩
  · have long : l.settings.fmax - 6 < len.toNat := by omega
    obtain ⟨taken, next⟩ := State.field_lengthOver receiving (hbytes ▸ hunt_append hnoise _)
      (scanFrame_over long addr kind rest)
    rw [exec_fieldFrameDiscard h, taken, discard]
    exact ⟨rfl, next⟩
  · simp only [List.forall_mem_cons, List.not_mem_nil, false_imp_iff, implies_true, and_true, exec_tally h, exec_quiet h,
      exec_stray h, State.fieldFrame_overlong receiving hover, discard]
    exact ⟨rfl, rfl, rfl⟩
  have unread {kind : Byte} {why : FieldDiscard} (hr : readAnswer kind payload = .error why) :
      s.fieldFrame k addr kind payload = counted fun c => c.discard why := by
    rw [State.fieldFrame_taken receiving hlen, State.completeFrame_unread hr, discard]
  have notAnswer (ht : kind ≠ 0x11) (hq : kind ≠ 0x12) :
      s.fieldFrame k addr kind payload = counted fun c => c.discard .checkError := unread (readAnswer_notAnswer ht hq payload)
  refine ⟨fun hi lo hcrc hbytes => ?_, fun hbytes => ?_, fun ht hq => ?_, fun hover => ?_, fun hshort => ?_,
    fun c hc hrecords => ?_⟩
  · have mismatch : scanFrame (l.settings.fmax - 6)
        (addr :: kind :: BitVec.ofNat 8 payload.length :: (payload ++ hi :: lo :: rest)) = .checkFailed := by
      rw [scanFrame_whole (by omega) hlen', if_neg (Ne.symm hcrc)]
    rw [List.append_assoc] at hbytes
    obtain ⟨taken, next⟩ := State.field_checkFailed receiving (hbytes ▸ hunt_append hnoise _) mismatch
    rw [exec_fieldFrameDiscard h, taken, discard]
    exact ⟨rfl, next⟩
  · obtain ⟨after, hframe, hscan⟩ := scanFrame_complete (limit := l.settings.fmax - 6) (by omega) hlen' addr kind rest
    rw [List.append_assoc, hframe] at hbytes
    obtain ⟨taken, next⟩ := State.field_complete receiving (hbytes ▸ hunt_append hnoise after) hscan
    have whole : s.fieldBytes k new = s.fieldFrame k addr kind payload := by
      rw [taken, State.fieldFrame_taken receiving hlen]
    refine ⟨next, exec_fieldCommand h whole, fun ht hq => ?_⟩
    rw [exec_fieldFrameDiscard h, whole, notAnswer ht hq]
    rfl
  · rw [exec_stray h, notAnswer ht hq]
    rfl
  · obtain ⟨n, records, hpay, hn⟩ := hover
    have long : readAnswer tallyKind payload = .error .overlong := by
      rw [hpay, readAnswer_tally, if_pos hn]
    rw [exec_tally h, unread long]
    rfl
  · have short : readAnswer tallyKind payload = .error .checkError := by
      obtain hnil | ⟨n, records, hpay, hn, hnone⟩ := hshort
      · rw [hnil]
        rfl
      · rw [hpay, readAnswer_tally, if_neg (not_lt.2 hn), hnone]
    rw [exec_tally h, unread short]
    rfl
  · obtain ⟨kind, rs, hexec, hr⟩ : ∃ kind rs, exec c s = .next ((s.setReceived k []).completeFrame k addr kind payload)
        ∧ readAnswer kind payload = .ok rs := by
      rcases List.mem_cons.1 hc with rfl | hc
      · exact ⟨quietKind, [], by rw [exec_quiet h, State.fieldFrame_taken receiving hlen], rfl⟩
      · obtain rfl := List.mem_singleton.1 hc
        obtain ⟨n, records, hpay, hn, hsome⟩ := hrecords k payload rfl
        obtain ⟨rs, hrs⟩ := Option.ne_none_iff_exists'.1 hsome
        refine ⟨tallyKind, rs, by rw [exec_tally h, State.fieldFrame_taken receiving hlen], ?_⟩
        rw [hpay, readAnswer_tally, if_neg (not_lt.2 hn), hrs]
    refine ⟨fun hunknown => ?_, fun hs hpolled e he hl ha hidle => ?_⟩
    · rw [hexec, State.completeFrame_unsent hr (State.findSender_unknown (s := s.setReceived k []) hunknown), discard]
      rfl
    · have spent := s.line_setReceived k []
      have idle : (s.setReceived k []).endedBy k e.1 = none := by
        rw [State.endedBy_eq_filter (s := s.setReceived k []) (by rwa [spent]) hm, spent, Option.filter_eq_none_iff]
        intro t ht
        simpa using hidle t ht
      rw [hexec, State.completeFrame_unsent hr
        (State.findSender_stray (s := s.setReceived k []) hs he hl ha (by rw [spent]; exact hpolled) idle), discard]
      rfl

end Sys2Proof.Machine
end

section
/-! PROOFS. The frame of a directive reads back as that directive (O4). -/

namespace Sys2Proof.Machine

/-! ## Rows that share the refusal of a payload without a code -/

/-- Do two rows of a directive act alike on a payload that does not name its row (log 2)? -/
def ActAlikeUnnamed (row row' : Byte → CodedRequest → Instr) : Prop :=
  ∀ (addr : Byte) (req : CodedRequest) (s : State), req.named = false → exec (row addr req) s = exec (row' addr req) s

theorem tableEdit_alike {req : CodedRequest} (h : req.named = false) (addr : Byte) (s : State)
    (f g : List Byte → State → Except ReplyCode State) : tableEdit addr req s f = tableEdit addr req s g := by
  unfold tableEdit
  rw [CodedRequest.fields?_of_unnamed h]

theorem tableRead_alike {req : CodedRequest} (h : req.named = false) (addr : Byte) (s : State)
    (f g : List Byte → State → Except ReplyCode (List Byte)) : tableRead addr req s f = tableRead addr req s g := by
  unfold tableRead
  rw [CodedRequest.fields?_of_unnamed h]

theorem modes_alike : ActAlikeUnnamed .modeMaintain .modeRun := by
  intro addr req s h
  delta exec execModeMaintain execModeRun
  dsimp only
  rw [CodedRequest.fields?_of_unnamed h]
  refine congrArg (groupDirective addr req.tag s) (funext fun dest => funext fun t => ?_)
  cases t.mode <;> rfl

theorem restarts_alike : ActAlikeUnnamed .restartRuntime .restartFull := by
  intro addr req s h
  delta exec execRestartRuntime execRestartFull
  dsimp only
  rw [CodedRequest.fields?_of_unnamed h]

/-! ## Reading back -/

/-- The frame a command is borne by fits the length limit and reads back as the command, or as one that acts alike. -/
def ReadsBack (c : Instr) (d : Directive) : Prop :=
  d.payload.length ≤ 250
    ∧ (c.namesItsRow = true → directiveOf d.addr d.kind d.payload = c)
    ∧ ∀ s : State, exec (directiveOf d.addr d.kind d.payload) s = exec c s

theorem readsBack_of_eq {c : Instr} {d : Directive} (hlen : d.payload.length ≤ 250)
    (h : directiveOf d.addr d.kind d.payload = c) : ReadsBack c d := ⟨hlen, fun _ => h, fun _ => by rw [h]⟩

/-- A payload without its code is read as one row of its directive, whichever row it was sent for. -/
def ReadsUnnamedAs (kind : Byte) (row : Byte → CodedRequest → Instr) : Prop :=
  ∀ (addr tag : Byte), directiveOf addr kind [] = row addr .empty ∧ directiveOf addr kind [tag] = row addr (.codeMissing tag)
    ∧ directiveOf addr kind [tag, 0xFF] = row addr (.codeUnknown tag)

theorem codedFrame_readsBack {kind code addr : Byte} {req : CodedRequest} {d : Directive}
    {row standIn : Byte → CodedRequest → Instr} (hd : codedFrame kind code addr req = some d) (hwf : req.wf = true)
    (hnames : (row addr req).namesItsRow = req.named)
    (named : ∀ addr tag fields, directiveOf addr kind (tag :: code :: fields) = row addr (.coded tag fields))
    (unnamed : ReadsUnnamedAs kind standIn) (alike : ActAlikeUnnamed standIn row) : ReadsBack (row addr req) d := by
  have bare (hlen : d.payload.length ≤ 250) (hn : req.named = false)
      (h : directiveOf d.addr d.kind d.payload = standIn addr req) : ReadsBack (row addr req) d :=
    ⟨hlen, fun hrow => absurd (hn.symm.trans (hnames.symm.trans hrow)) (by decide), fun s => h ▸ alike addr req s hn⟩
  cases req with
  | empty =>
    cases hd
    exact bare (by simp) rfl (unnamed addr 0).1
  | codeMissing tag =>
    cases hd
    exact bare (by simp) rfl (unnamed addr tag).2.1
  | codeUnknown tag =>
    cases hd
    exact bare (by simp) rfl (unnamed addr tag).2.2
  | coded tag fields =>
    cases hd
    exact readsBack_of_eq (of_decide_eq_true hwf) (named addr tag fields)

theorem plainFrame_readsBack {kind addr : Byte} {req : Request} {d : Directive} {row : Byte → Request → Instr}
    (hd : plainFrame kind addr req = some d) (hwf : req.wf = true)
    (reads : ∀ addr payload, directiveOf addr kind payload = row addr (requestOf payload)) : ReadsBack (row addr req) d := by
  cases req with
  | empty =>
    cases hd
    exact readsBack_of_eq (by simp) (reads addr [])
  | tagged tag fields =>
    cases hd
    exact readsBack_of_eq (of_decide_eq_true hwf) (reads addr (tag :: fields))

theorem statusFrame_readsBack {option addr : Byte} {req : StatusRequest} {d : Directive} {row : Byte → StatusRequest → Instr}
    (hd : statusFrame option addr req = some d) (hnames : (row addr req).namesItsRow = req.named)
    (named : ∀ addr tag, directiveOf addr 0x2E [tag, option] = row addr (.given tag))
    (alike : ∀ (addr : Byte) (req : StatusRequest) (s : State), req.named = false →
      exec (.status addr req) s = exec (row addr req) s) : ReadsBack (row addr req) d := by
  have bare (hlen : d.payload.length ≤ 250) (hn : req.named = false)
      (h : directiveOf d.addr d.kind d.payload = .status addr req) : ReadsBack (row addr req) d :=
    ⟨hlen, fun hrow => absurd (hn.symm.trans (hnames.symm.trans hrow)) (by decide), fun s => h ▸ alike addr req s hn⟩
  cases req with
  | empty =>
    cases hd
    exact bare (by simp) rfl rfl
  | optionMissing tag =>
    cases hd
    exact bare (by simp) rfl rfl
  | given tag =>
    cases hd
    exact readsBack_of_eq (by simp) (named addr tag)

theorem statuses_alike (addr : Byte) (req : StatusRequest) (s : State) (h : req.named = false) :
    exec (.status addr req) s = exec (.statusClear addr req) s := by
  cases req with
  | given tag => cases h
  | _ => rfl

/-- A kind that is none of the fourteen names no directive (R184). -/
theorem directiveOf_unknown {kind : Byte} (h : directiveKinds.contains kind = false) (addr : Byte) (payload : List Byte) :
    directiveOf addr kind payload = .unknownKind addr kind (requestOf payload) := by
  have outside : kind.toNat < 0x21 ∨ 0x2E < kind.toNat := by
    revert h kind
    decide
  unfold directiveOf
  split
  any_goals omega
  rfl

theorem loads_unnamed : ReadsUnnamedAs 0x21 .partLoad := fun _ _ => ⟨rfl, rfl, rfl⟩
theorem erases_unnamed : ReadsUnnamedAs 0x22 .partErase := fun _ _ => ⟨rfl, rfl, rfl⟩
theorem reads_unnamed : ReadsUnnamedAs 0x23 .partRead := fun _ _ => ⟨rfl, rfl, rfl⟩
theorem faults_unnamed : ReadsUnnamedAs 0x25 .faultById := fun _ _ => ⟨rfl, rfl, rfl⟩
theorem modes_unnamed : ReadsUnnamedAs 0x29 .modeMaintain := fun _ _ => ⟨rfl, rfl, rfl⟩
theorem restarts_unnamed : ReadsUnnamedAs 0x2A .restartRuntime := fun _ _ => ⟨rfl, rfl, rfl⟩

/-- Settles O4: row by row of the frame tables; a payload that names no row is refused alike by every row. -/
theorem directiveFramesReadBack : Obligations.DirectiveFramesReadBack := by
  intro c d hwf hd
  cases c
  case partLoad addr req | lineLoad addr req | outstationLoad addr req | assetLoad addr req | pointLoad addr req
      | faultProfileLoad addr req | loopProfileLoad addr req | stormLoad addr req | beaconLoad addr req =>
    exact codedFrame_readsBack hd hwf rfl (fun _ _ _ => rfl) loads_unnamed fun _ _ s h => tableEdit_alike h _ s _ _
  case partErase addr req | lineErase addr req | outstationErase addr req | assetErase addr req | pointErase addr req
      | faultProfileErase addr req | loopProfileErase addr req | stormErase addr req | beaconErase addr req =>
    exact codedFrame_readsBack hd hwf rfl (fun _ _ _ => rfl) erases_unnamed fun _ _ s h => tableEdit_alike h _ s _ _
  case partRead addr req | lineRead addr req | outstationRead addr req | assetRead addr req | pointRead addr req
      | faultProfileRead addr req | loopProfileRead addr req | stormRead addr req | beaconRead addr req =>
    exact codedFrame_readsBack hd hwf rfl (fun _ _ _ => rfl) reads_unnamed fun _ _ s h => tableRead_alike h _ s _ _
  case faultById addr req | faultByAsset addr req =>
    exact codedFrame_readsBack hd hwf rfl (fun _ _ _ => rfl) faults_unnamed fun _ _ s h => tableRead_alike h _ s _ _
  case modeRun addr req => exact codedFrame_readsBack hd hwf rfl (fun _ _ _ => rfl) modes_unnamed modes_alike
  case modeMaintain addr req => exact codedFrame_readsBack hd hwf rfl (fun _ _ _ => rfl) modes_unnamed fun _ _ _ _ => rfl
  case restartRuntime addr req =>
    exact codedFrame_readsBack hd hwf rfl (fun _ _ _ => rfl) restarts_unnamed fun _ _ _ _ => rfl
  case restartFull addr req => exact codedFrame_readsBack hd hwf rfl (fun _ _ _ => rfl) restarts_unnamed restarts_alike
  case status addr req => exact statusFrame_readsBack hd rfl (fun _ _ => rfl) fun _ _ _ _ => rfl
  case statusClear addr req => exact statusFrame_readsBack hd rfl (fun _ _ => rfl) statuses_alike
  case list addr req | ack addr req | close addr req | time addr req | downlink addr req | resync addr req
      | beaconReset addr req =>
    exact plainFrame_readsBack hd hwf fun _ _ => rfl
  case unknownKind addr kind req =>
    have hwf : (req.wf && !directiveKinds.contains kind) = true := hwf
    rw [Bool.and_eq_true, Bool.not_eq_true'] at hwf
    exact plainFrame_readsBack (row := fun addr => .unknownKind addr kind) hd hwf.1 (directiveOf_unknown hwf.2)
  all_goals cases hd

end Sys2Proof.Machine
end

section
/-! PROOFS. Beacons follow their sources, and every command leaves them so (O19). -/

namespace Sys2Proof.Machine

/-! ## One beacon -/

section
variable {b : Beacon}

theorem Beacon.settle_same : b.settle b.value = b := if_pos rfl

theorem Beacon.settle_rising_on (hv : b.value = false) (ho : b.output = true) : b.settle true = { b with value := true } := by
  rw [Beacon.settle, hv, ho]
  rfl

/-- An output that is off has neither count nor latch, and goes on with what its stretch loads (R168, R169). -/
theorem Beacon.settle_rising_off (h : b.InRange) (hv : b.value = false) (ho : b.output = false) :
    b.settle true = { b with
      value := true, output := true, count := (b.stretch.seconds.map (· + 1)).getD 0, latch := b.stretch = .latched } := by
  obtain ⟨-, -, -, hcount, hlatch, -, -⟩ := h
  have count : b.count = 0 := by_contra fun hne => Bool.false_ne_true (ho.symm.trans (hcount hne))
  have latch : b.latch = false := Bool.eq_false_of_not_eq_true fun ht => Bool.false_ne_true (ho.symm.trans (hlatch ht))
  obtain ⟨source, argument, stretch, value, output, n, latched⟩ := b
  dsimp only at hv ho count latch
  subst hv ho count latch
  cases stretch <;> rfl

theorem Beacon.settle_falling (hv : b.value = true) (ho : b.output = true) :
    b.settle false = { b with value := false, output := b.latch || b.count ≠ 0 } := by
  obtain ⟨source, argument, stretch, value, output, n, latched⟩ := b
  dsimp only at hv ho
  subst hv ho
  cases latched <;> by_cases hn : n = 0 <;> simp [Beacon.settle, hn]

/-- What an evaluation and a fresh start leave of a beacon: its source, under its new value. -/
def Beacon.Under (b b' : Beacon) (v : Bool) : Prop := b'.value = v ∧ b'.source = b.source ∧ b'.argument = b.argument

theorem Beacon.turnOn_under : b.Under b.turnOn b.value := by
  unfold Beacon.turnOn
  split <;> exact ⟨rfl, rfl, rfl⟩

theorem Beacon.settle_under (v : Bool) : b.Under (b.settle v) v := by
  unfold Beacon.settle
  split
  · next hv => exact ⟨hv.symm, rfl, rfl⟩
  · split
    · next hv =>
      split
      · exact ⟨hv.symm, rfl, rfl⟩
      · obtain ⟨value, source, argument⟩ := Beacon.turnOn_under (b := { b with value := true })
        exact ⟨value.trans hv.symm, source, argument⟩
    · next hv => split <;> exact ⟨(Bool.eq_false_of_not_eq_true hv).symm, rfl, rfl⟩

theorem Beacon.startAfresh_under (v : Bool) : b.Under (b.startAfresh v) v := by
  unfold Beacon.startAfresh
  dsimp only
  split
  · exact Beacon.turnOn_under (b := { b with value := v, output := false, count := 0, latch := false })
  · exact ⟨rfl, rfl, rfl⟩

theorem Beacon.secondTick_under : b.Under b.secondTick b.value := by
  rw [Beacon.secondTick_eq]
  split <;> exact ⟨rfl, rfl, rfl⟩

theorem Beacon.unlatch_under : b.Under b.unlatch b.value := by
  rw [Beacon.unlatch_eq]
  split <;> exact ⟨rfl, rfl, rfl⟩

end

/-! ## Source values -/

/-- The head of the queue has the greatest urgency (R149, R167). -/
theorem State.sourceValue_headUrgency {s : State} {argument : Nat} :
    s.sourceValue .headUrgency argument = true ↔ ∃ e ∈ s.records, argument ≤ e.2.urgency := by
  have members (e : Nat × FaultRecord) : e ∈ s.records ↔ e ∈ s.dispatchQueue := s.dispatchQueue_perm.mem_iff.symm
  have sorted := s.dispatchQueue_sorted
  unfold State.sourceValue
  simp only [members]
  cases hq : s.dispatchQueue with
  | nil => simp
  | cons e rest =>
    rw [hq, List.pairwise_cons] at sorted
    have greatest (e' : Nat × FaultRecord) (he' : e' ∈ rest) : e'.2.urgency ≤ e.2.urgency := by
      have before := sorted.1 e' he'
      by_contra hlt
      exact not_lt.2 before ((dispatchKey_lt_iff e' e).2 (.inl (not_le.1 hlt)))
    refine ⟨fun h => ⟨e, List.mem_cons_self, of_decide_eq_true h⟩, fun ⟨e', he', h⟩ => decide_eq_true ?_⟩
    rcases List.mem_cons.1 he' with rfl | he'
    · exact h
    · exact h.trans (greatest e' he')

theorem State.sourceValue_anyOpen {s : State} {argument : Nat} :
    s.sourceValue .anyOpen argument = true ↔ ∃ e ∈ s.records, e.2.state = .opened := by
  rw [State.sourceValue, decide_eq_true_eq, State.openRecords, Ne, List.length_eq_zero_iff, List.filter_eq_nil_iff]
  simp

theorem State.sourceValue_tableFull {s : State} {argument : Nat} :
    s.sourceValue .tableFull argument = true ↔ s.waiting ≠ [] := by
  simp [State.sourceValue]

theorem State.sourceValue_lineSilent {s : State} {argument : Nat} : s.sourceValue .lineSilent argument = true
    ↔ ∃ e ∈ s.outstations, e.1 / 32 + 1 = argument ∧ e.2.comms = .silent := by
  rw [State.sourceValue, List.any_eq_true]
  simp only [decide_eq_true_eq]
  rfl

/-- The states of communication of the outstations, by index. -/
def State.commsTable (s : State) : Table Comms := s.outstations.map fun e => (e.1, e.2.comms)

/-- Source values are read from the records, the storm state, the waiting list and the states of communication. -/
theorem State.sourceValue_congr {s t : State} (h : (t.records, t.storm.on, t.waiting) = (s.records, s.storm.on, s.waiting))
    (hc : t.commsTable = s.commsTable) : t.sourceValue = s.sourceValue := by
  simp only [Prod.mk.injEq] at h
  obtain ⟨hr, hs, hw⟩ := h
  funext source argument
  cases source
  case headUrgency => simp only [State.sourceValue, State.dispatchQueue, hr]
  case anyOpen =>
    have opened : t.openRecords = s.openRecords := by rw [State.openRecords, State.openRecords, hr]
    simp only [State.sourceValue, opened]
  case storm => exact hs
  case tableFull => simp only [State.sourceValue, hw]
  case lineSilent =>
    have read (u : State) : u.sourceValue .lineSilent argument
        = u.commsTable.any fun e => lineOf e.1 + 1 = argument ∧ e.2 = .silent := by
      rw [State.commsTable, List.any_map]
      rfl
    rw [read, read, hc]
  all_goals rfl

/-! ## Settled beacons -/

/-- Each beacon's value is that of its source (R167). -/
def State.Settled (s : State) : Prop :=
  ∀ b : Fin 4, (s.beacon b).value = s.sourceValue (s.beacon b).source (s.beacon b).argument

theorem State.settled_settleBeacons (s : State) : s.settleBeacons.Settled := by
  intro b
  have source : s.settleBeacons.sourceValue = s.sourceValue := State.sourceValue_congr rfl rfl
  rw [source, State.beacon_settleBeacons]
  obtain ⟨hv, hs, ha⟩ := Beacon.settle_under (b := s.beacon b) (s.sourceValue (s.beacon b).source (s.beacon b).argument)
  rw [hv, hs, ha]

theorem State.settled_restartBeacons (s : State) : s.restartBeacons.Settled := by
  intro b
  have source : s.restartBeacons.sourceValue = s.sourceValue := State.sourceValue_congr rfl rfl
  have started : s.restartBeacons.beacon b
      = (s.beacon b).startAfresh (s.sourceValue (s.beacon b).source (s.beacon b).argument) := Vector.getElem_map _ b.isLt
  rw [source, started]
  obtain ⟨hv, hs, ha⟩ := Beacon.startAfresh_under (b := s.beacon b) (s.sourceValue (s.beacon b).source (s.beacon b).argument)
  rw [hv, hs, ha]

section
variable {s t : State} (h : s.Settled)
include h

theorem State.Settled.of_comms
    (ht : (t.beacons, t.records, t.storm.on, t.waiting) = (s.beacons, s.records, s.storm.on, s.waiting))
    (hc : t.commsTable = s.commsTable) : t.Settled := by
  simp only [Prod.mk.injEq] at ht
  obtain ⟨hb, hr, hs, hw⟩ := ht
  intro b
  have same : t.beacon b = s.beacon b := congrArg (fun v => Vector.get v b) hb
  rw [same, State.sourceValue_congr (by rw [hr, hs, hw]) hc]
  exact h b

theorem State.Settled.of_eq (ht : (t.beacons, t.records, t.storm.on, t.waiting, t.outstations)
    = (s.beacons, s.records, s.storm.on, s.waiting, s.outstations)) : t.Settled := by
  simp only [Prod.mk.injEq] at ht
  obtain ⟨hb, hr, hs, hw, ho⟩ := ht
  exact h.of_comms (by rw [hb, hr, hs, hw]) (by rw [State.commsTable, ho]; rfl)

theorem State.Settled.mapOutstations {f : Nat → Outstation → Outstation} (hf : ∀ o x, (f o x).comms = x.comms) :
    (s.setOutstations (s.outstations.mapAll f)).Settled := by
  refine h.of_comms rfl ?_
  simp only [State.commsTable, State.setOutstations_outstations, Table.mapAll, List.map_map, Function.comp_def, hf]

theorem State.Settled.adjustOutstation (o : Nat) {f : Outstation → Outstation} (hf : ∀ x, (f x).comms = x.comms) :
    (s.adjustOutstation o f).Settled := by
  rw [State.adjustOutstation, Table.adjust_eq_mapAll]
  refine h.mapOutstations fun o' x => ?_
  split
  · exact hf x
  · rfl

/-- A change of one beacon that leaves it under its source. -/
theorem State.Settled.adjustBeacon (b : Fin 4) {f : Beacon → Beacon}
    (hf : (f (s.beacon b)).value = s.sourceValue (f (s.beacon b)).source (f (s.beacon b)).argument) :
    (s.adjustBeacon b f).Settled := by
  intro c
  have source : (s.adjustBeacon b f).sourceValue = s.sourceValue := State.sourceValue_congr rfl rfl
  rw [source, State.beacon_adjustBeacon]
  split
  · exact hf
  · exact h c

theorem State.Settled.adjustBeacon_under (b : Fin 4) {f : Beacon → Beacon} (hf : ∀ x : Beacon, x.Under (f x) x.value) :
    (s.adjustBeacon b f).Settled := by
  obtain ⟨hv, hs, ha⟩ := hf (s.beacon b)
  exact h.adjustBeacon b (by rw [hv, hs, ha]; exact h b)

theorem State.Settled.replyIfOwed (dest : Option ReplyTo) (code : ReplyCode) : (s.replyIfOwed dest code).Settled := by
  cases dest with
  | none => exact h
  | some dest => exact h.of_eq rfl

end

theorem State.Settled.foldl {β : Type} {f : State → β → State} (hf : ∀ s b, s.Settled → (f s b).Settled) (l : List β) {s : State}
    (hs : s.Settled) : (l.foldl f s).Settled :=
  List.foldlRecOn l f hs fun t ht b _ => hf t b ht

theorem settled_keptByReplies : KeptByReplies State.Settled := fun _ _ _ _ h => h.of_eq rfl

end Sys2Proof.Machine
end

section
/-! PROOFS. Every command leaves the beacons settled (O19): most change nothing a source is read from, or evaluate the beacons
last. -/

namespace Sys2Proof.Machine

/-! ## LOAD and ERASE -/

section
variable {fs : List Byte} {s t : State}

/-- The LOADs and ERASEs of what no source is read from. -/
def editsBesideSources : List (List Byte → State → Except ReplyCode State) :=
  [partLoad, pointLoad, loopProfileLoad, stormLoad, partErase, assetErase, pointErase, loopProfileErase, stormErase]

theorem editsBesideSources_ok {edit : List Byte → State → Except ReplyCode State} (hedit : edit ∈ editsBesideSources)
    (h : edit fs s = .ok t) : (t.beacons, t.records, t.storm.on, t.waiting, t.outstations)
      = (s.beacons, s.records, s.storm.on, s.waiting, s.outstations) := by
  simp only [editsBesideSources, List.mem_cons, List.not_mem_nil, or_false] at hedit
  rcases hedit with rfl | rfl | rfl | rfl | rfl | rfl | rfl | rfl | rfl
  all_goals
    simp only [partLoad, pointLoad, loopProfileLoad, stormLoad, partErase, assetErase, pointErase, loopProfileErase,
      stormErase] at h
    repeat' split at h
    all_goals cases h
    all_goals rfl

/-- LOADs and ERASEs that evaluate the beacons last. -/
def settlingEdits : List (List Byte → State → Except ReplyCode State) :=
  [lineLoad, outstationLoad, faultProfileLoad, lineErase, faultProfileErase]

theorem settlingEdits_ok {edit : List Byte → State → Except ReplyCode State} (hedit : edit ∈ settlingEdits)
    (h : edit fs s = .ok t) : ∃ u : State, t = u.settleBeacons := by
  simp only [settlingEdits, List.mem_cons, List.not_mem_nil, or_false] at hedit
  rcases hedit with rfl | rfl | rfl | rfl | rfl
  all_goals
    simp only [lineLoad, outstationLoad, faultProfileLoad, lineErase, faultProfileErase] at h
    repeat' split at h
    all_goals cases h
    all_goals exact ⟨_, rfl⟩

theorem State.Settled.outstationErase (hs : s.Settled) (h : outstationErase fs s = .ok t) : t.Settled := by
  unfold Machine.outstationErase at h
  repeat' split at h
  all_goals cases h
  · exact hs
  · exact State.settled_settleBeacons _

theorem State.Settled.storeAsset (hs : s.Settled) (a : Nat) (config : AssetConfig) : (s.storeAsset a config).Settled := by
  unfold State.storeAsset
  split
  · exact hs.of_eq rfl
  · dsimp only
    split
    · exact State.settled_settleBeacons _
    · exact hs.of_eq rfl

theorem State.Settled.storeBeacon (hs : s.Settled) (b : Fin 4) (source : BeaconSource) (argument : Nat) (stretch : Stretch) :
    (s.storeBeacon b source argument stretch).Settled := by
  refine hs.adjustBeacon b ?_
  obtain ⟨hv, hsource, hargument⟩ := Beacon.startAfresh_under
    (b := { s.beacon b with source := source, argument := argument, stretch := stretch }) (s.sourceValue source argument)
  rw [hv, hsource, hargument]

theorem State.Settled.tableEdit (hs : s.Settled) {addr : Byte} {req : CodedRequest}
    {edit : List Byte → State → Except ReplyCode State} (h : ∀ fs t, edit fs s = .ok t → t.Settled) :
    NextMeets State.Settled (tableEdit addr req s edit) := settled_keptByReplies.tableEdit hs h

theorem State.Settled.editBesideSources (hs : s.Settled) {edit : List Byte → State → Except ReplyCode State}
    (hedit : edit ∈ editsBesideSources) (addr : Byte) (req : CodedRequest) :
    NextMeets State.Settled (Machine.tableEdit addr req s edit) :=
  hs.tableEdit fun _ _ ht => hs.of_eq (editsBesideSources_ok hedit ht)

theorem State.Settled.settlingEdit (hs : s.Settled) {edit : List Byte → State → Except ReplyCode State}
    (hedit : edit ∈ settlingEdits) (addr : Byte) (req : CodedRequest) :
    NextMeets State.Settled (Machine.tableEdit addr req s edit) := by
  refine hs.tableEdit fun _ _ ht => ?_
  obtain ⟨u, rfl⟩ := settlingEdits_ok hedit ht
  exact u.settled_settleBeacons

theorem State.Settled.beaconLoad (hs : s.Settled) (h : beaconLoad fs s = .ok t) : t.Settled := by
  unfold Machine.beaconLoad at h
  repeat' split at h
  all_goals cases h
  exact hs.storeBeacon _ _ _ _

theorem State.Settled.beaconErase (hs : s.Settled) (h : beaconErase fs s = .ok t) : t.Settled := by
  unfold Machine.beaconErase at h
  split at h <;> cases h
  exact hs.storeBeacon _ _ _ _

/-! ## Other directives -/

theorem State.Settled.ackFault (hs : s.Settled) (h : ackFault fs s = .ok t) : t.Settled := by
  unfold Machine.ackFault at h
  repeat' split at h
  all_goals cases h
  unfold State.acknowledge
  split
  · exact State.settled_settleBeacons _
  · exact hs

theorem State.settled_closeFault (h : closeFault fs s = .ok t) : t.Settled := by
  unfold closeFault at h
  repeat' split at h
  all_goals cases h
  exact State.settled_settleBeacons _

theorem State.Settled.downlink (hs : s.Settled) {dest : ReplyTo} (h : downlink dest fs s = .ok t) : t.Settled := by
  simp only [Machine.downlink] at h
  repeat' split at h
  all_goals cases h
  exact hs.of_eq rfl

theorem State.Settled.resync (hs : s.Settled) (h : resync fs s = .ok t) : t.Settled := by
  unfold Machine.resync at h
  repeat' split at h
  all_goals cases h
  exact hs.adjustOutstation _ fun _ => rfl

theorem State.Settled.beaconReset (hs : s.Settled) (h : beaconReset fs s = .ok t) : t.Settled := by
  unfold Machine.beaconReset at h
  split at h <;> cases h
  exact hs.adjustBeacon_under _ fun _ => Beacon.unlatch_under

end

/-! ## Ticks and TIME -/

section
variable {s : State}

theorem State.Settled.lineSecond (hs : s.Settled) (k : Fin 4) : (s.lineSecond k).Settled := by
  unfold State.lineSecond
  split
  · refine hs.mapOutstations fun o x => ?_
    split
    · unfold Outstation.secondTick
      split <;> rfl
    · rfl
  · exact hs

theorem State.Settled.tickWork (hs : s.Settled) (w : TickWork) : (s.tickWork w).Settled := by
  cases w with
  | line k => exact hs.lineSecond k
  | beacon b => exact hs.adjustBeacon_under b fun _ => Beacon.secondTick_under
  | _ => exact State.settled_settleBeacons _

theorem State.Settled.doOwed (hs : s.Settled) (w : TickWork) : (s.doOwed w).Settled := by
  have taken : (s.setOwed (s.owed.erase w)).Settled := hs.of_eq rfl
  unfold State.doOwed
  split
  · exact taken.tickWork w
  · exact hs

theorem State.Settled.finishOwed (hs : s.Settled) : s.finishOwed.Settled := by
  unfold State.finishOwed
  split
  · exact hs
  · exact (State.Settled.foldl (fun _ w ht => ht.doOwed w) _ hs).of_eq rfl

theorem State.Settled.takeTime (hs : s.Settled) (dayMinute second : Nat) : (s.takeTime dayMinute second).Settled := by
  unfold State.takeTime
  dsimp only
  split
  · exact s.runOn.settled_settleBeacons.of_eq rfl
  · exact hs.of_eq rfl

/-! ## Line units -/

theorem State.Settled.advancePoll (hs : s.Settled) (fuel : Nat) (k : Fin 4) : (advancePoll fuel k s).Settled := by
  have moved (s : State) (hs : s.Settled) (o n : Nat) : ((s.setPollPosition k o).setCountdown o n).Settled :=
    State.Settled.adjustOutstation (s := s.setPollPosition k o) (hs.of_eq rfl) o fun _ => rfl
  induction fuel generalizing s with
  | zero => exact hs
  | succ f ih =>
    unfold Machine.advancePoll
    split
    · exact hs
    · dsimp only
      split
      · exact hs.of_eq rfl
      · split
        · exact (moved s hs _ _).of_eq rfl
        · exact ih (moved s hs _ _)

theorem State.Settled.choosePolled (hs : s.Settled) (k : Fin 4) : (s.choosePolled k).Settled := by
  unfold State.choosePolled
  split
  · exact hs.of_eq rfl
  · exact hs.of_eq rfl
  · exact hs.advancePoll _ k

theorem State.Settled.chooseException (hs : s.Settled) (k : Fin 4) : (s.chooseException k).Settled := by
  unfold State.chooseException
  split
  · exact hs
  · exact hs.of_eq rfl
  · exact hs.of_eq rfl
  · split <;> exact hs.of_eq rfl

theorem State.Settled.completeFrame (hs : s.Settled) (k : Fin 4) (addr kind : Byte) (payload : List Byte) :
    (s.completeFrame k addr kind payload).Settled := by
  unfold State.completeFrame
  split
  · exact hs.of_eq rfl
  · split
    · exact hs.of_eq rfl
    · exact State.settled_settleBeacons _

theorem State.Settled.fieldFrame (hs : s.Settled) (k : Fin 4) (addr kind : Byte) (payload : List Byte) :
    (s.fieldFrame k addr kind payload).Settled := by
  have heard : (s.setReceived k []).Settled := hs.of_eq rfl
  unfold State.fieldFrame
  split
  · exact hs
  · dsimp only
    split
    · exact hs.of_eq rfl
    · exact heard.completeFrame k addr kind payload

theorem State.Settled.fieldBytes (hs : s.Settled) (k : Fin 4) (bytes : List Byte) : (s.fieldBytes k bytes).Settled := by
  have heard : (s.setReceived k []).Settled := hs.of_eq rfl
  unfold State.fieldBytes
  split
  · exact hs
  · split
    · exact heard
    · split
      · exact hs.of_eq rfl
      · exact hs.of_eq rfl
      · exact hs.of_eq rfl
      · exact heard.completeFrame k _ _ _

theorem State.Settled.execSweepSent (hs : s.Settled) (k : Fin 4) : NextMeets State.Settled (execSweepSent k s) := by
  refine nextMeets_unlessHeld hs ?_
  split
  · split
    · exact hs.of_eq rfl
    · exact hs
  · exact hs

theorem State.Settled.execOrderSent (hs : s.Settled) (k : Fin 4) : NextMeets State.Settled (execOrderSent k s) := by
  refine nextMeets_unlessHeld hs ?_
  split
  · split
    · exact hs.of_eq rfl
    · exact hs
  · exact hs

theorem State.Settled.execSweepTimeout (hs : s.Settled) (k : Fin 4) : NextMeets State.Settled (execSweepTimeout k s) := by
  refine nextMeets_unlessHeld hs ?_
  split
  · next t _ =>
    split
    · split
      · exact State.Settled.adjustOutstation (s := (s.countOn k .timeout).setTransaction k _) (hs.of_eq rfl) _ fun _ => rfl
      · exact State.settled_settleBeacons _
    · exact hs
  · exact hs

theorem State.Settled.execOrderTimeout (hs : s.Settled) (k : Fin 4) : NextMeets State.Settled (execOrderTimeout k s) := by
  refine nextMeets_unlessHeld hs ?_
  split
  · split
    · exact hs.of_eq rfl
    · exact hs
  · exact hs

/-! ## Modes and walks -/

theorem State.settled_restartRuntime (s : State) : s.restartRuntime.Settled := by
  unfold State.restartRuntime
  exact (State.settled_restartBeacons _).of_eq rfl

theorem State.settled_reset : State.reset.Settled := by
  unfold State.Settled
  decide

theorem State.Settled.execModeRun (hs : s.Settled) (addr : Byte) (req : CodedRequest) :
    NextMeets State.Settled (execModeRun addr req s) := by
  refine nextMeets_groupDirective hs fun dest => ?_
  split
  · exact hs.replyIfOwed dest .busy
  · exact hs.replyIfOwed dest .badEntry
  · exact hs.replyIfOwed dest .done
  · exact State.settled_settleBeacons _

theorem State.Settled.execModeMaintain (hs : s.Settled) (addr : Byte) (req : CodedRequest) :
    NextMeets State.Settled (execModeMaintain addr req s) := by
  refine nextMeets_groupDirective hs fun dest => ?_
  split
  · exact hs.replyIfOwed dest .busy
  · exact hs.replyIfOwed dest .badEntry
  · exact hs.replyIfOwed dest .done
  · exact (State.settled_settleBeacons _).replyIfOwed dest .done

theorem State.Settled.execRestartRuntime (hs : s.Settled) (addr : Byte) (req : CodedRequest) :
    NextMeets State.Settled (execRestartRuntime addr req s) := by
  refine nextMeets_groupDirective hs fun dest => ?_
  split
  · exact hs.replyIfOwed dest .badEntry
  · exact s.settled_restartRuntime

theorem State.Settled.execRestartFull (hs : s.Settled) (addr : Byte) (req : CodedRequest) :
    NextMeets State.Settled (execRestartFull addr req s) := by
  refine nextMeets_groupDirective hs fun dest => ?_
  split
  · exact hs.replyIfOwed dest .badEntry
  · exact State.settled_reset.of_eq rfl

theorem State.Settled.execTime (hs : s.Settled) (addr : Byte) (req : Request) :
    NextMeets State.Settled (execTime addr req s) := by
  refine nextMeets_groupDirective hs fun dest => ?_
  dsimp only
  split
  · exact hs.replyIfOwed dest .badEntry
  · exact (hs.finishOwed.takeTime _ _).replyIfOwed dest .done

theorem State.Settled.beginWalk (hs : s.Settled) : s.beginWalk.Settled := by
  unfold State.beginWalk
  split
  · exact hs.of_eq rfl
  · exact hs

theorem State.Settled.execDownlink (hs : s.Settled) (addr : Byte) (req : Request) :
    NextMeets State.Settled (execDownlink addr req s) := by
  refine nextMeets_directive hs fun dest => ?_
  split
  · exact hs.of_eq rfl
  · next ht => exact hs.downlink ht

theorem State.Settled.answered (hs : s.Settled) {addr tag : Byte} {f : State → Except ReplyCode State}
    (h : ∀ t, f s = .ok t → t.Settled) :
    NextMeets State.Settled (directive addr tag s fun dest s => s.answer dest (f s)) :=
  nextMeets_directive hs fun dest => settled_keptByReplies.answer hs h dest

theorem State.Settled.reported (hs : s.Settled) {addr tag : Byte} {f : State → Except ReplyCode (List Byte)} :
    NextMeets State.Settled (directive addr tag s fun dest s => s.report dest (f s)) :=
  nextMeets_directive hs fun dest => settled_keptByReplies.report hs dest _

theorem State.Settled.execStatus (hs : s.Settled) (addr : Byte) (req : StatusRequest) :
    NextMeets State.Settled (execStatus addr req s) := by
  refine nextMeets_directive hs fun dest => ?_
  split <;> exact hs.of_eq rfl

theorem State.Settled.execStatusClear (hs : s.Settled) (addr : Byte) (req : StatusRequest) :
    NextMeets State.Settled (execStatusClear addr req s) := by
  refine nextMeets_directive hs fun dest => ?_
  split <;> exact hs.of_eq rfl

theorem State.Settled.execUnknownKind (hs : s.Settled) (addr kind : Byte) (req : Request) :
    NextMeets State.Settled (execUnknownKind addr kind req s) :=
  nextMeets_directive hs fun dest => settled_keptByReplies s dest _ _ hs

theorem State.Settled.unlessHeld (hs : s.Settled) {f : State → State} (h : (f s).Settled) :
    NextMeets State.Settled (unlessHeld s f) := nextMeets_unlessHeld hs h

/-! ## Every command -/

theorem State.Settled.exec (hs : s.Settled) (c : Instr) : NextMeets State.Settled (exec c s) := by
  have beside : ∀ edit ∈ editsBesideSources, ∀ addr req, NextMeets State.Settled (Machine.tableEdit addr req s edit) :=
    fun _ hedit => hs.editBesideSources hedit
  have settling : ∀ edit ∈ settlingEdits, ∀ addr req, NextMeets State.Settled (Machine.tableEdit addr req s edit) :=
    fun _ hedit => hs.settlingEdit hedit
  simp only [editsBesideSources, settlingEdits, List.forall_mem_cons] at beside settling
  obtain ⟨partLoad, pointLoad, loopLoad, stormLoad, partErase, assetErase, pointErase, loopErase, stormErase, -⟩ := beside
  obtain ⟨lineLoad, outLoad, faultLoad, lineErase, faultErase, -⟩ := settling
  cases c with
  | partLoad addr req => exact partLoad addr req
  | lineLoad addr req => exact lineLoad addr req
  | outstationLoad addr req => exact outLoad addr req
  | assetLoad addr req =>
    refine hs.tableEdit fun _ _ ht => ?_
    obtain ⟨a, config, rfl⟩ := assetLoad_ok ht
    exact hs.storeAsset a config
  | pointLoad addr req => exact pointLoad addr req
  | faultProfileLoad addr req => exact faultLoad addr req
  | loopProfileLoad addr req => exact loopLoad addr req
  | stormLoad addr req => exact stormLoad addr req
  | beaconLoad addr req => exact hs.tableEdit fun _ _ => hs.beaconLoad
  | partErase addr req => exact partErase addr req
  | lineErase addr req => exact lineErase addr req
  | outstationErase addr req => exact hs.tableEdit fun _ _ => hs.outstationErase
  | assetErase addr req => exact assetErase addr req
  | pointErase addr req => exact pointErase addr req
  | faultProfileErase addr req => exact faultErase addr req
  | loopProfileErase addr req => exact loopErase addr req
  | stormErase addr req => exact stormErase addr req
  | beaconErase addr req => exact hs.tableEdit fun _ _ => hs.beaconErase
  | partRead addr req => exact settled_keptByReplies.tableRead hs
  | lineRead addr req => exact settled_keptByReplies.tableRead hs
  | outstationRead addr req => exact settled_keptByReplies.tableRead hs
  | assetRead addr req => exact settled_keptByReplies.tableRead hs
  | pointRead addr req => exact settled_keptByReplies.tableRead hs
  | faultProfileRead addr req => exact settled_keptByReplies.tableRead hs
  | loopProfileRead addr req => exact settled_keptByReplies.tableRead hs
  | stormRead addr req => exact settled_keptByReplies.tableRead hs
  | beaconRead addr req => exact settled_keptByReplies.tableRead hs
  | list addr req => exact hs.reported
  | faultById addr req => exact settled_keptByReplies.tableRead hs
  | faultByAsset addr req => exact settled_keptByReplies.tableRead hs
  | ack addr req => exact hs.answered fun _ => hs.ackFault
  | close addr req => exact hs.answered fun _ => State.settled_closeFault
  | time addr req => exact hs.execTime addr req
  | modeRun addr req => exact hs.execModeRun addr req
  | modeMaintain addr req => exact hs.execModeMaintain addr req
  | restartRuntime addr req => exact hs.execRestartRuntime addr req
  | restartFull addr req => exact hs.execRestartFull addr req
  | downlink addr req => exact hs.execDownlink addr req
  | resync addr req => exact hs.answered fun _ => hs.resync
  | beaconReset addr req => exact hs.answered fun _ => hs.beaconReset
  | status addr req => exact hs.execStatus addr req
  | statusClear addr req => exact hs.execStatusClear addr req
  | unknownKind addr kind req => exact hs.execUnknownKind addr kind req
  | trunkCheckFail cause =>
    refine hs.unlessHeld (f := fun s => s.setTrunk { s.trunk with checkFails := bump s.trunk.checkFails }) ?_
    exact hs.of_eq rfl
  | trunkFrameIgnored addr kind =>
    refine hs.unlessHeld (f := fun s => s) ?_
    exact hs
  | powerOn => exact nextMeets_next (State.settled_reset.of_eq rfl)
  | transmitBegin =>
    refine hs.unlessHeld (f := fun s => s.setTrunk (s.trunk.begun s.storm.on)) ?_
    exact hs.of_eq rfl
  | transmitComplete =>
    refine hs.unlessHeld (f := fun s => s.setTrunk { s.trunk with sending := none }) ?_
    exact hs.of_eq rfl
  | tally k addr payload =>
    refine hs.unlessHeld (f := fun s => s.fieldFrame k addr tallyKind payload) ?_
    exact hs.fieldFrame k addr _ payload
  | quiet k addr payload =>
    refine hs.unlessHeld (f := fun s => s.fieldFrame k addr quietKind payload) ?_
    exact hs.fieldFrame k addr _ payload
  | fieldFrameDiscard k bytes =>
    refine hs.unlessHeld (f := fun s => s.fieldBytes k bytes) ?_
    exact hs.fieldBytes k bytes
  | stray k addr kind payload =>
    refine hs.unlessHeld (f := fun s => s.fieldFrame k addr kind payload) ?_
    exact hs.fieldFrame k addr kind payload
  | pollChoose k =>
    refine hs.unlessHeld ?_
    split
    · exact hs.choosePolled k
    · exact hs
  | exceptionChoose k =>
    refine hs.unlessHeld ?_
    split
    · exact hs.chooseException k
    · exact hs
  | sweepSent k => exact hs.execSweepSent k
  | orderSent k => exact hs.execOrderSent k
  | sweepTimeout k => exact hs.execSweepTimeout k
  | orderTimeout k => exact hs.execOrderTimeout k
  | secondTick =>
    refine hs.unlessHeld (f := fun s => s.finishOwed.tickSecond) ?_
    exact hs.finishOwed.of_eq rfl
  | minuteTick =>
    refine hs.unlessHeld (f := fun s => s.finishOwed.tickMinute) ?_
    exact hs.finishOwed.of_eq rfl
  | lineSecondWork k =>
    refine hs.unlessHeld (f := fun s => s.doOwed (.line k)) ?_
    exact hs.doOwed _
  | beaconStretchTick b =>
    refine hs.unlessHeld (f := fun s => s.doOwed (.beacon b)) ?_
    exact hs.doOwed _
  | rankerMinuteEvent =>
    refine hs.unlessHeld (f := fun s => s.doOwed .ranker) ?_
    exact hs.doOwed _
  | windowCloseEvent =>
    refine hs.unlessHeld (f := fun s => s.doOwed .windows) ?_
    exact hs.doOwed _
  | stormMinuteEvent =>
    refine hs.unlessHeld (f := fun s => s.doOwed .storm) ?_
    exact hs.doOwed _
  | walkBegin =>
    refine hs.unlessHeld (f := fun s => s.beginWalk) ?_
    exact hs.beginWalk
  | absorbVisit =>
    refine hs.unlessHeld (f := fun s => s.absorbVisit.settleBeacons) ?_
    exact State.settled_settleBeacons _
  | releaseVisit =>
    refine hs.unlessHeld (f := fun s => s.releaseVisit.settleBeacons) ?_
    exact State.settled_settleBeacons _
  | rebuildVisit =>
    refine hs.unlessHeld (f := fun s => (if s.entersRun then s.finishOwed else s).rebuildVisit.settleBeacons) ?_
    exact State.settled_settleBeacons _
  | resetInputActive => exact nextMeets_next (hs.of_eq rfl)

end

/-- Settles O19: the cases of one evaluation, the readings of the sources, and the commands one by one. -/
theorem beaconsFollowSources : Obligations.BeaconsFollowSources := by
  refine fun s argument => ⟨fun b h => ⟨Beacon.settle_same, Beacon.settle_rising_on, Beacon.settle_rising_off h, fun hv =>
    Beacon.settle_falling hv (h.2.2.1 hv)⟩, ⟨rfl, rfl, State.sourceValue_headUrgency, State.sourceValue_anyOpen, Iff.rfl,
    State.sourceValue_tableFull, State.sourceValue_lineSilent⟩, ⟨rfl, s.beacon_settleBeacons⟩, fun hs c t ht => ?_⟩
  exact State.Settled.exec hs c t ht

end Sys2Proof.Machine
end
